-- ==== Sys2Proof/Word.lean ====
section
/-! DEFINITION. The words of the engine (00_scope.md R12, R13): bytes, command words, clock readings and results. -/

namespace Sys2Proof

/-- A byte, 8 bits (R12). -/
abbrev Byte := BitVec 8

/-- A command word, 32 bits (30_encoding.md R91). -/
abbrev Word := BitVec 32

/-- A clock reading or time stamp: 32 bits, unsigned, wrapping (R12, R53). -/
abbrev Time := BitVec 32

/-- The result of an operation: 16 bits, two's complement (R36, R95). -/
abbrev Result := BitVec 16

/-- One of the banks WDATA and RDATA: eight bytes (R35). -/
abbrev Bank := Vector Byte 8

/-- The scratch area of READ_DATA: nine bytes (R34). -/
abbrev Scratch := Vector Byte 9

/-- A logic level: `low` is 0, dominant; `high` is 1, recessive (R13). -/
inductive Level
  | low
  | high
  deriving DecidableEq, Repr, Inhabited

end Sys2Proof
end

