-- ==== Sys2Proof/Syntax.lean ====
section
/-! DEFINITION. The fourteen operations as syntax (30_encoding.md R93, R94, R104): one constructor per row of spec/opcode_table.json. -/

namespace Sys2Proof

/-- The buffer operand: `null` is `NUL = 1`, `bank` is `NUL = 0` (R94: `NUL == 0 ? the bank : null`). -/
inductive Buf
  | bank
  | null
  deriving DecidableEq, Repr, Inhabited

/-- The operations of R93, with the operands of R94. -/
inductive Instr
  /-- BEGIN baud, isHost (R230). -/
  | beginOp (baud : BitVec 20) (isHost : Bool)
  /-- SLEEP forceSleep (R234). -/
  | sleep (force : Bool)
  /-- WAKE (R238). -/
  | wake
  /-- AVAILABLE (R140). -/
  | available
  /-- DATA_AVAILABLE (R148). -/
  | dataAvailable
  /-- WAIT_FOR_DATA size (R180). -/
  | waitForData (size : Byte)
  /-- READ_ID (R160). -/
  | readId
  /-- READ_DATA buf, len (R170). -/
  | readData (buf : Buf) (len : BitVec 4)
  /-- WRITE_HEADER id (R190). -/
  | writeHeader (id : Byte)
  /-- WRITE_DATA buf, len (R195). -/
  | writeData (buf : Buf) (len : BitVec 4)
  /-- CALC_CHECKSUM buf, len and a seed or none (R214): `none` is `useId = 0`. -/
  | calcChecksum (buf : Buf) (len : BitVec 4) (seed : Option Byte)
  /-- CALC_ID_PARITY id (R210). -/
  | calcIdParity (id : Byte)
  /-- DATA_LENGTH_CODE pid (R218). -/
  | dataLengthCode (pid : Byte)
  /-- LIN_VERSION (`none`: read) or LIN_VERSION v (`some v`: write) (R242). -/
  | linVersion (write : Option Byte)
  deriving DecidableEq, Repr

/-- Why a command word is a reserved encoding (R92, R96, R97, R214, R242). -/
inductive DecodeError
  /-- `RSV` is not zero (R92). -/
  | reservedBits
  /-- Opcode 0 or 15 (R96). -/
  | reservedOpcode
  /-- A field the operation does not use is not zero (R92). -/
  | unusedField
  /-- `LEN` is 9 to 15 in READ_DATA or WRITE_DATA (R97). -/
  | lengthOutOfDomain
  deriving DecidableEq, Repr

end Sys2Proof
end

