-- ==== Sys2Proof/WellFormed.lean ====
section
/-! DEFINITION. Which operations have a command word (30_encoding.md R97): the operand types leave only the length of READ_DATA and WRITE_DATA to check. -/

namespace Sys2Proof

/-- The largest payload of a frame: "0–8 data bytes" (R97, R102 `MAX_DATA`). -/
def maxData : Nat := 8

/-- `LEN` is in the domain R97 admits for READ_DATA and WRITE_DATA. -/
def lenOk (len : BitVec 4) : Bool := decide (len.toNat ≤ maxData)

/-- The operation has a command word that is not reserved. BEGIN's operands are not checked here: a word that breaks
their domain is no reserved encoding (R93), it is refused when it runs (R231). -/
def Instr.wellFormed : Instr → Bool
  | .beginOp _ _ => true
  | .sleep _ => true
  | .wake => true
  | .available => true
  | .dataAvailable => true
  | .waitForData _ => true
  | .readId => true
  | .readData _ len => lenOk len
  | .writeHeader _ => true
  | .writeData _ len => lenOk len
  | .calcChecksum _ _ _ => true
  | .calcIdParity _ => true
  | .dataLengthCode _ => true
  | .linVersion _ => true

end Sys2Proof
end

