-- ==== Sys2Proof/Decode.lean ====
section
/-! DEFINITION. The command word (30_encoding.md R91 to R97): field extraction, the decoder, total and rejecting by name, and the encoder written from the same table. -/

namespace Sys2Proof

/-- `OP`, bits 31:28 (R91). -/
def fieldOp (w : Word) : BitVec 4 := w.extractLsb' 28 4
/-- `LEN`, bits 27:24 (R91). -/
def fieldLen (w : Word) : BitVec 4 := w.extractLsb' 24 4
/-- `NUL`, bit 23 (R91). -/
def fieldNul (w : Word) : BitVec 1 := w.extractLsb' 23 1
/-- `FLG`, bit 22 (R91). -/
def fieldFlg (w : Word) : BitVec 1 := w.extractLsb' 22 1
/-- `RSV`, bits 21:20 (R91). -/
def fieldRsv (w : Word) : BitVec 2 := w.extractLsb' 20 2
/-- `ARG`, bits 19:0 (R91). -/
def fieldArg (w : Word) : BitVec 20 := w.extractLsb' 0 20
/-- `ARG[19:8]`, zero in every operation but BEGIN (R91). -/
def argHigh (a : BitVec 20) : BitVec 12 := a.extractLsb' 8 12
/-- `ARG[7:0]` (R91, R94). -/
def argByte (a : BitVec 20) : Byte := a.extractLsb' 0 8

/-- The buffer operand of a word (R94). -/
def bufOfNul (n : BitVec 1) : Buf := if n = 0 then .bank else .null

/-- Accept `i` when every field it does not use is zero (R92). -/
def whenUnusedZero (ok : Bool) (i : Instr) : Except DecodeError Instr :=
  if ok then .ok i else .error .unusedField

/-- READ_DATA and WRITE_DATA admit `LEN` 0 to 8 only (R97). -/
def whenLenOk (len : BitVec 4) (r : Except DecodeError Instr) : Except DecodeError Instr :=
  if lenOk len then r else .error .lengthOutOfDomain

/-- The operation of a word whose fields are given, `RSV` being zero (R93, R94). -/
def decodeFields (op len : BitVec 4) (nul flg : BitVec 1) (arg : BitVec 20) : Except DecodeError Instr :=
  match op.toNat with
  | 1 => whenUnusedZero (len = 0 ∧ nul = 0) (.beginOp arg (flg = 1))
  | 2 => whenUnusedZero (len = 0 ∧ nul = 0 ∧ arg = 0) (.sleep (flg = 1))
  | 3 => whenUnusedZero (len = 0 ∧ nul = 0 ∧ flg = 0 ∧ arg = 0) .wake
  | 4 => whenUnusedZero (len = 0 ∧ nul = 0 ∧ flg = 0 ∧ arg = 0) .available
  | 5 => whenUnusedZero (len = 0 ∧ nul = 0 ∧ flg = 0 ∧ arg = 0) .dataAvailable
  | 6 => whenUnusedZero (len = 0 ∧ nul = 0 ∧ flg = 0 ∧ argHigh arg = 0) (.waitForData (argByte arg))
  | 7 => whenUnusedZero (len = 0 ∧ nul = 0 ∧ flg = 0 ∧ arg = 0) .readId
  | 8 => whenLenOk len (whenUnusedZero (flg = 0 ∧ arg = 0) (.readData (bufOfNul nul) len))
  | 9 => whenUnusedZero (len = 0 ∧ nul = 0 ∧ flg = 0 ∧ argHigh arg = 0) (.writeHeader (argByte arg))
  | 10 => whenLenOk len (whenUnusedZero (flg = 0 ∧ arg = 0) (.writeData (bufOfNul nul) len))
  | 11 =>
    if flg = 1 then whenUnusedZero (argHigh arg = 0) (.calcChecksum (bufOfNul nul) len (some (argByte arg)))
    else whenUnusedZero (arg = 0) (.calcChecksum (bufOfNul nul) len none)
  | 12 => whenUnusedZero (len = 0 ∧ nul = 0 ∧ flg = 0 ∧ argHigh arg = 0) (.calcIdParity (argByte arg))
  | 13 => whenUnusedZero (len = 0 ∧ nul = 0 ∧ flg = 0 ∧ argHigh arg = 0) (.dataLengthCode (argByte arg))
  | 14 =>
    if flg = 1 then whenUnusedZero (len = 0 ∧ nul = 0 ∧ argHigh arg = 0) (.linVersion (some (argByte arg)))
    else whenUnusedZero (len = 0 ∧ nul = 0 ∧ arg = 0) (.linVersion none)
  | _ => .error .reservedOpcode

/-- The decoder: total on every word, a reserved encoding rejected by name (R96). -/
def decode (w : Word) : Except DecodeError Instr :=
  if fieldRsv w = 0 then decodeFields (fieldOp w) (fieldLen w) (fieldNul w) (fieldFlg w) (fieldArg w)
  else .error .reservedBits

/-- A command word from its fields, `RSV` zero: `oooo llll n f 00 aaaaaaaaaaaaaaaaaaaa` (R91). -/
def cmdWord (op len : BitVec 4) (nul flg : BitVec 1) (arg : BitVec 20) : Word :=
  op ++ len ++ nul ++ flg ++ 0#2 ++ arg

/-- `NUL` of a buffer operand (R91). -/
def nulOfBuf : Buf → BitVec 1
  | .bank => 0
  | .null => 1

/-- `ARG` of an operation that uses `ARG[7:0]` only (R91). -/
def argOfByte (b : Byte) : BitVec 20 := 0#12 ++ b

/-- The encoder: the command word of an operation (R93). -/
def encode : Instr → Word
  | .beginOp baud isHost => cmdWord 1 0 0 (BitVec.ofBool isHost) baud
  | .sleep force => cmdWord 2 0 0 (BitVec.ofBool force) 0
  | .wake => cmdWord 3 0 0 0 0
  | .available => cmdWord 4 0 0 0 0
  | .dataAvailable => cmdWord 5 0 0 0 0
  | .waitForData size => cmdWord 6 0 0 0 (argOfByte size)
  | .readId => cmdWord 7 0 0 0 0
  | .readData buf len => cmdWord 8 len (nulOfBuf buf) 0 0
  | .writeHeader id => cmdWord 9 0 0 0 (argOfByte id)
  | .writeData buf len => cmdWord 10 len (nulOfBuf buf) 0 0
  | .calcChecksum buf len (some seed) => cmdWord 11 len (nulOfBuf buf) 1 (argOfByte seed)
  | .calcChecksum buf len none => cmdWord 11 len (nulOfBuf buf) 0 0
  | .calcIdParity id => cmdWord 12 0 0 0 (argOfByte id)
  | .dataLengthCode pid => cmdWord 13 0 0 0 (argOfByte pid)
  | .linVersion (some v) => cmdWord 14 0 0 1 (argOfByte v)
  | .linVersion none => cmdWord 14 0 0 0 0

/-- A row of the opcode map (R93): a word `w` selects the row when `w & mask == match`. -/
def rowSelects (pattern mask w : Word) : Bool := decide (w &&& mask = pattern)

/-- `match` and `mask` of an operation's row (R93). -/
def rowOf : Instr → Word × Word
  | .beginOp _ _ => (0x10000000, 0xFFB00000)
  | .sleep _ => (0x20000000, 0xFFBFFFFF)
  | .wake => (0x30000000, 0xFFFFFFFF)
  | .available => (0x40000000, 0xFFFFFFFF)
  | .dataAvailable => (0x50000000, 0xFFFFFFFF)
  | .waitForData _ => (0x60000000, 0xFFFFFF00)
  | .readId => (0x70000000, 0xFFFFFFFF)
  | .readData _ _ => (0x80000000, 0xF07FFFFF)
  | .writeHeader _ => (0x90000000, 0xFFFFFF00)
  | .writeData _ _ => (0xA0000000, 0xF07FFFFF)
  | .calcChecksum _ _ _ => (0xB0000000, 0xF03FFF00)
  | .calcIdParity _ => (0xC0000000, 0xFFFFFF00)
  | .dataLengthCode _ => (0xD0000000, 0xFFFFFF00)
  | .linVersion _ => (0xE0000000, 0xFFBFFF00)

/-- What the decoder reads from the word `w` of `nbits` bits, bit 0 the least significant; `none` where it refuses.
A command word is one 32-bit word with no byte order (R70, R103). -/
def decodeTableWord (nbits w : Nat) : Option Instr :=
  (decode (BitVec.ofNat 32 (w % 2 ^ nbits))).toOption

end Sys2Proof
end

