-- ==== Sys2Proof/Config.lean ====
section
/-! DEFINITION. What one instance fixes (00_scope.md R7 to R11), and the open values of the spec (93_implementation_defined.md): constants without a body, of which nothing can be proved. -/

namespace Sys2Proof

/-- The open parameters of an instance (R7, R9, R10, R11; U13). They stand in `State.cfg`, which no step changes,
so a statement about every state holds for every value of them. -/
structure Config where
  /-- `N_FB`, the capacity of the Frame Byte Buffer (R7). -/
  nFb : Nat
  /-- `MAX_FRAME_BITS`, in bit periods (R9). -/
  maxFrameBits : Nat
  /-- `HAS_TX`: a TX line is wired (R10). -/
  hasTx : Bool
  /-- `SLEEP_FILL`, bytes 1 to 7 of the sleep command payload (R11). -/
  sleepFill : Vector Byte 7
  deriving DecidableEq, Repr

namespace Config

/-- `N_SP`, the capacity of the Sync Position Buffer (R8). -/
def nSp : Nat := 8

/-- The constraints R7 and R9 put on the parameters. D11's bound on the product is not needed: the product is exact here (log 15). -/
abbrev Ok (c : Config) : Prop := 1 ≤ c.nFb ∧ c.nFb ≤ 256 ∧ 0 < c.maxFrameBits

/-- The parameter values the vectors of 95_test_vectors.md use. DESIGN CHOICE (log 2): the instance of `State.reset`. -/
def sample : Config :=
  { nFb := 64, maxFrameBits := 200, hasTx := true, sleepFill := #v[0xFF, 0xFF, 0xFF, 0xFF, 0xFF, 0xFF, 0xFF] }

end Config

/-- The bus role (R21): Host is code 1, Node is code 0. -/
inductive Role
  | node
  | host
  deriving DecidableEq, Repr, Inhabited

/-- Who drives the TX line (R37). -/
inductive TxOwner
  | serial
  | gpio
  deriving DecidableEq, Repr, Inhabited

/-- One move of the environment between two steps of the engine (R50 to R53, R74): what it appends to the serial
receive queue, the RX level it leaves, and how far it moves the clocks. The two masks are its choice where the engine
stops, restarts or starts the serial peripheral (U7): byte `i` is lost where entry `i` is false; a byte past the end is kept. -/
structure EnvMove where
  arrive : List Byte
  level : Level
  addMicros : Time
  addMillis : Time
  rxKeep : List Bool
  txKeep : List Bool
  deriving DecidableEq, Repr, Inhabited

/-- A value for each field that 10_state.md R40 leaves unspecified at reset, and for what the environment does
(R50 to R53). -/
structure ResetDraw where
  role : Role
  baud : BitVec 20
  bitUs : Time
  linVersion : Byte
  /-- `FB.mem[0 .. 255]`, of which the instance has the first `N_FB` (R7, R27). -/
  fbStore : Vector Byte 256
  fbHead : Nat
  fbTail : Nat
  fbLen : Nat
  spStore : Vector Byte 8
  spHead : Nat
  spTail : Nat
  spLen : Nat
  lastLevel : Level
  lastActivity : Time
  breakStart : Time
  breakStartValid : Bool
  breakConfirmed : Bool
  breakCount : Byte
  scratch : Scratch
  wdata : Bank
  rdata : Bank
  result : Result
  csLevel : Level
  txLevel : Level
  txOwner : TxOwner
  rxQueue : List Byte
  rxLevel : Level
  micros : Time
  millis : Time
  moves : List EnvMove
  deriving DecidableEq, Repr, Inhabited

namespace Config

/-- The free values of reset: R39 "A model must not pick zero for them", U6 and U10 `any value`, U16 for the
environment. No body. DESIGN CHOICE (log 3, log 4, log 7). -/
opaque resetDraw : ResetDraw

/-- What AVAILABLE returns in the Host role for a serial queue of `n ≥ 2^15` bytes, where the spec states no value:
"The count is taken to fit in 15 bits" (R146, D40). No body. DESIGN CHOICE (log 11). -/
opaque hostCountBeyond15 : Nat → Result

end Config

end Sys2Proof
end

