-- ==== Sys2Proof/Machine/Store.lean ====
section
/-! DEFINITION. The byte stores of the ring buffers (20_memory.md R60, R61): one canonical form, reading, writing, and a store filled with given bytes. -/

namespace Sys2Proof.Machine

/-- A store of bytes: (address, byte) pairs in the canonical form `Memory.wf`. -/
abbrev Memory := List Host.Cell

/-- What an unlisted byte of a store reads as: the byte the canonical form leaves out. DESIGN CHOICE (log 5): it is part
of the representation and gives no byte inside a buffer's capacity a value, since reset draws all of those (R39). -/
def Memory.unlisted : Byte := 0

/-- The canonical form: addresses strictly rising, no entry equal to what an unlisted byte reads as. -/
def Memory.wf (m : Memory) : Bool :=
  decide (m.Pairwise fun a b => a.1 < b.1) && m.all fun c => c.2 != Memory.unlisted

/-- The byte at an address. -/
def Memory.read : Memory → Nat → Byte
  | [], _ => Memory.unlisted
  | (a, v) :: m, i => if a = i then v else Memory.read m i

/-- List `v` at address `i` in front of `m`, unless an unlisted byte reads the same. -/
def Memory.cons (i : Nat) (v : Byte) (m : Memory) : Memory :=
  if v = Memory.unlisted then m else (i, v) :: m

/-- Store `v` at address `i`, keeping the canonical form. -/
def Memory.write : Memory → Nat → Byte → Memory
  | [], i, v => Memory.cons i v []
  | (a, b) :: m, i, v =>
    if i < a then Memory.cons i v ((a, b) :: m)
    else if i = a then Memory.cons i v m
    else (a, b) :: Memory.write m i v

/-- The store with the bytes `l` at the addresses from `i` on. -/
def Memory.ofBytes (i : Nat) : List Byte → Memory
  | [] => []
  | b :: l => Memory.cons i b (Memory.ofBytes (i + 1) l)

end Sys2Proof.Machine
end

