-- ==== Sys2Proof/Machine/State.lean ====
section
/-! DEFINITION. The state of the engine and of its environment (10_state.md R20 to R54, 30_encoding.md R90), its value at reset (R39, R40), and the reasons a step can stop. -/

namespace Sys2Proof.Machine

/-- The device state (R22). -/
inductive DevState
  | powerOnReset
  | ready
  | txOff
  | operational
  | sleep
  deriving DecidableEq, Repr

/-- The three GPIO lines (R14). -/
inductive Pin
  | rx
  | tx
  | cs
  deriving DecidableEq, Repr

/-- The configuration of a pin (R37). -/
inductive PinMode
  | unset
  | input
  | output
  deriving DecidableEq, Repr

/-- The event alphabet of the output trace (R15). -/
inductive Event
  | serialCount (n : Nat)
  | serialRead (b : Byte)
  | serialWrite (b : Byte)
  | serialFlush
  | serialBegin (baud : BitVec 20)
  | serialTxStop
  | serialRestart
  | pinMode (p : Pin) (m : PinMode)
  | gpioWrite (p : Pin) (l : Level)
  | gpioRead (p : Pin) (l : Level)
  | micros (t : Time)
  | millis (t : Time)
  | delayUs (n : Nat)
  deriving DecidableEq, Repr

/-- What the sequencer does next (R23): `idle` is `busy = 0`. Of the numbered steps only the loop of WAIT_FOR_DATA
(R180, step 3) is a state between two steps of the model; its operands are the latched ones (R78). -/
inductive Phase
  | idle
  | waitLoop (size : Byte) (t0 : Time) (limit : Nat)
  deriving DecidableEq, Repr

/-- A ring buffer (R60): its store, the index of the oldest byte, the index of the next write, the number of bytes. -/
structure Ring where
  mem : Memory
  head : Nat
  tail : Nat
  len : Nat
  deriving DecidableEq, Repr

/-- The break detection state (R29 to R33). -/
structure Detector where
  lastLevel : Level
  lastActivity : Time
  breakStart : Time
  breakStartValid : Bool
  breakConfirmed : Bool
  breakCount : Byte
  deriving DecidableEq, Repr

/-- The pins as state, shadows of the output trace (R37). -/
structure Pins where
  csLevel : Level
  txLevel : Level
  modeRx : PinMode
  modeTx : PinMode
  modeCs : PinMode
  txOwner : TxOwner
  deriving DecidableEq, Repr

/-- The environment the engine samples (R50 to R53), with its coming moves, oldest first (R74, log 6). -/
structure Env where
  rxQueue : List Byte
  txPending : List Byte
  rxLevel : Level
  micros : Time
  millis : Time
  moves : List EnvMove
  deriving DecidableEq, Repr

/-- A command the caller drives at the port: `cmd_word` and `wdata` (R90). -/
structure Command where
  word : Word
  wdata : Bank
  deriving DecidableEq, Repr

/-- The whole state: the engine (R21 to R37), the port (R90), the output trace (R15) and the environment. -/
@[ext]
structure State where
  cfg : Config
  role : Role
  devState : DevState
  phase : Phase
  baud : BitVec 20
  bitUs : Time
  linVersion : Byte
  fb : Ring
  sp : Ring
  det : Detector
  scratch : Scratch
  wdata : Bank
  rdata : Bank
  result : Result
  rspValid : Bool
  pins : Pins
  trace : List Event
  cmds : List Command
  env : Env
  deriving DecidableEq, Repr

/-- Why a step can fault: never. "No behaviour of this engine is treated as `fault`" (93_implementation_defined.md,
part 1; R251, log 22). A protocol error is a result of an operation that completes (R250). -/
inductive Fault
  deriving DecidableEq, Repr

/-- Why a step can refuse. Every refusal is safe: the model stops and nothing is provable past the point. -/
inductive Refusal
  /-- Raised by `exec` for an operation without a meaning. Safe. -/
  | notModelled (mnemonic : String)
  /-- Raised by `step` for a reserved command word, and by READ_DATA and WRITE_DATA with a length outside their
  domain: "a model refuses it" (R96, R97, U1, U5). Safe. -/
  | reservedEncoding (why : DecodeError)
  /-- Raised by every operation that reads what BEGIN writes, in PowerOnReset: "a model refuses it" (R262, U2). Safe. -/
  | beforeBegin
  /-- Raised by BEGIN with `baud = 0` or `baud > 1000000`: "a model refuses such a BEGIN" (R131, R231, U3). Safe. -/
  | baudOutOfDomain
  /-- Raised by BEGIN with `isHost = 1` on an instance with `HAS_TX = 0`: "a model refuses such a BEGIN" (R231, U3). Safe. -/
  | hostWithoutTx
  deriving DecidableEq, Repr

/-- What `exec` and `step` answer. -/
abbrev Out := Host.Outcome State Fault Refusal

/-- Reset for any configuration and any values of what R40 leaves unspecified: `PowerOnReset`, `busy = 0`, the pin modes
UNSET (R39, R290); each byte of the two stores is the draw's (R39, R40); no call has been made, no command is at the port. -/
def State.resetWith (c : Config) (d : ResetDraw) : State :=
  { cfg := c
    role := d.role
    devState := .powerOnReset
    phase := .idle
    baud := d.baud
    bitUs := d.bitUs
    linVersion := d.linVersion
    fb := { mem := Memory.ofBytes 0 (d.fbStore.toList.take c.nFb), head := d.fbHead, tail := d.fbTail, len := d.fbLen }
    sp := { mem := Memory.ofBytes 0 (d.spStore.toList.take Config.nSp), head := d.spHead, tail := d.spTail, len := d.spLen }
    det := { lastLevel := d.lastLevel, lastActivity := d.lastActivity, breakStart := d.breakStart,
             breakStartValid := d.breakStartValid, breakConfirmed := d.breakConfirmed, breakCount := d.breakCount }
    scratch := d.scratch
    wdata := d.wdata
    rdata := d.rdata
    result := d.result
    rspValid := false
    pins := { csLevel := d.csLevel, txLevel := d.txLevel, modeRx := .unset, modeTx := .unset, modeCs := .unset,
              txOwner := d.txOwner }
    trace := []
    cmds := []
    env := { rxQueue := d.rxQueue, txPending := [], rxLevel := d.rxLevel, micros := d.micros, millis := d.millis,
             moves := d.moves } }

/-- The machine right after power-on (R39, R290): the sample instance (log 2) with the free values of reset (log 3). -/
def State.reset : State := State.resetWith Config.sample Config.resetDraw

end Sys2Proof.Machine
end

