-- ==== Sys2Proof/Machine/Ops.lean ====
section
/-! DEFINITION. The named operations over the state: ring buffers (20_memory.md R60 to R66), the environment and the collaborator calls (00_scope.md R14, R15), ending an operation and reporting an error (60_exceptions.md R250 to R252). -/

namespace Sys2Proof.Machine

/-! ## Ring buffers -/

/-- The invariant of a ring buffer of capacity `n` (R60, C1): indices below `n`, `len ≤ n`, the tail `len` after the
head modulo `n`; its store canonical and inside the capacity. -/
def Ring.wf (n : Nat) (b : Ring) : Bool :=
  decide (b.head < n) && decide (b.tail < n) && decide (b.len ≤ n) && decide (b.tail = (b.head + b.len) % n)
    && b.mem.wf && b.mem.all fun c => decide (c.1 < n)

/-- The bytes held, oldest first (R65, R67). -/
def Ring.content (n : Nat) (b : Ring) : List Byte :=
  (List.range b.len).map fun i => b.mem.read ((b.head + i) % n)

/-- `rb_write(B, v)` (R62): accepted or not, and the buffer after. -/
def Ring.write (n : Nat) (b : Ring) (v : Byte) : Bool × Ring :=
  if b.len = n then (false, b)
  else (true, { mem := b.mem.write b.tail v, head := b.head, tail := (b.tail + 1) % n, len := b.len + 1 })

/-- `rb_read(B)` (R63): the oldest byte, or nothing when empty, and the buffer after. -/
def Ring.read (n : Nat) (b : Ring) : Option Byte × Ring :=
  if b.len = 0 then (none, b)
  else (some (b.mem.read b.head), { mem := b.mem, head := (b.head + 1) % n, tail := b.tail, len := b.len - 1 })

/-- `rb_peek(B)` (R64): the oldest byte, or nothing when empty. -/
def Ring.peek (b : Ring) : Option Byte :=
  if b.len = 0 then none else some (b.mem.read b.head)

/-- `rb_clear(B)` (R66): the store is not written. -/
def Ring.clear (b : Ring) : Ring := { mem := b.mem, head := 0, tail := 0, len := 0 }

/-- `k` reads in a row (R171): the bytes in order, and the buffer after. -/
def Ring.pop (n : Nat) : Nat → Ring → List Byte × Ring
  | 0, b => ([], b)
  | k + 1, b =>
    match b.read n with
    | (none, b1) => ([], b1)
    | (some v, b1) => (v :: (Ring.pop n k b1).1, (Ring.pop n k b1).2)

/-! ## The environment -/

/-- The bytes of a transport's queue that survive under a mask (U7). -/
def keepBy : List Bool → List Byte → List Byte
  | [], q => q
  | _ :: _, [] => []
  | true :: ks, b :: q => b :: keepBy ks q
  | false :: ks, _ :: q => keepBy ks q

/-- The environment makes its next move (R50, R52, R53, R74): bytes join the receive queue, the level changes, the
clocks move forward. Without a coming move it stays as it is. -/
def Env.advance (e : Env) : Env :=
  match e.moves with
  | [] => e
  | m :: ms =>
    { rxQueue := e.rxQueue ++ m.arrive, txPending := e.txPending, rxLevel := m.level,
      micros := e.micros + m.addMicros, millis := e.millis + m.addMillis, moves := ms }

/-- The environment's move where the serial peripheral is stopped, restarted or started: it also keeps or loses the
bytes queued in it, either way (U7, R307, log 8). -/
def Env.peripheral (e : Env) : Env :=
  match e.moves with
  | [] => e
  | m :: _ =>
    Env.advance { rxQueue := keepBy m.rxKeep e.rxQueue, txPending := keepBy m.txKeep e.txPending,
                  rxLevel := e.rxLevel, micros := e.micros, millis := e.millis, moves := e.moves }

/-- How many bytes the environment has queued or will ever deliver. -/
def Env.supply (e : Env) : Nat :=
  e.rxQueue.length + (e.moves.map fun m => m.arrive.length).sum

/-! ## Events and collaborator calls -/

/-- What an event leaves on the pins (R37). -/
def Pins.note (p : Pins) : Event → Pins
  | .serialCount _ => p
  | .serialRead _ => p
  | .serialWrite _ => p
  | .serialFlush => p
  | .serialBegin _ => { p with txOwner := .serial }
  | .serialTxStop => { p with txOwner := .gpio }
  | .serialRestart => { p with txOwner := .serial }
  | .pinMode .rx m => { p with modeRx := m }
  | .pinMode .tx m => { p with modeTx := m }
  | .pinMode .cs m => { p with modeCs := m }
  | .gpioWrite .rx _ => p
  | .gpioWrite .tx l => { p with txLevel := l }
  | .gpioWrite .cs l => { p with csLevel := l }
  | .gpioRead _ _ => p
  | .micros _ => p
  | .millis _ => p
  | .delayUs _ => p

/-- The level the GPIO puts on the TX line, while it drives the line (R37). -/
def Pins.txLine (p : Pins) : Option Level :=
  match p.txOwner with
  | .gpio => some p.txLevel
  | .serial => none

/-- `emit E` (R14, R15): append the event to the output trace; the pins follow it (R37). -/
def State.emit (e : Event) (s : State) : State :=
  { s with trace := s.trace ++ [e], pins := s.pins.note e }

/-- Replace the environment. -/
def State.withEnv (e : Env) (s : State) : State := { s with env := e }

/-- `SerialCount()` (R14, R50): the environment moves, the length of its queue is the answer. -/
def State.serialCount (s : State) : Nat × State :=
  (s.env.advance.rxQueue.length, (s.withEnv s.env.advance).emit (.serialCount s.env.advance.rxQueue.length))

/-- `SerialRead()` (R14, R50): remove and return the oldest queued byte, if any. -/
def State.serialRead (s : State) : Option (Byte × State) :=
  match s.env.rxQueue with
  | [] => none
  | b :: q => some (b, (s.withEnv { s.env with rxQueue := q }).emit (.serialRead b))

/-- `SerialWrite(b)` (R14, R51). -/
def State.serialWrite (b : Byte) (s : State) : State :=
  (s.withEnv { s.env with txPending := s.env.txPending ++ [b] }).emit (.serialWrite b)

/-- `SerialFlush()` (R14, R51, R77): returns when every byte handed over has been physically transmitted. -/
def State.serialFlush (s : State) : State :=
  (s.withEnv { s.env with txPending := [] }).emit .serialFlush

/-- `SerialBegin(baud)` (R14). -/
def State.serialBegin (baud : BitVec 20) (s : State) : State :=
  (s.withEnv s.env.peripheral).emit (.serialBegin baud)

/-- `SerialTxStop()` (R14, U7). -/
def State.serialTxStop (s : State) : State := (s.withEnv s.env.peripheral).emit .serialTxStop

/-- `SerialRestart()` (R14, U7). -/
def State.serialRestart (s : State) : State := (s.withEnv s.env.peripheral).emit .serialRestart

/-- `PinMode(p, m)` (R14). -/
def State.setPinMode (p : Pin) (m : PinMode) (s : State) : State := s.emit (.pinMode p m)

/-- `GpioWrite(p, l)` (R14). -/
def State.gpioWrite (p : Pin) (l : Level) (s : State) : State := s.emit (.gpioWrite p l)

/-- `GpioRead(RX)` (R14, R52): the environment moves, its level is the answer. -/
def State.gpioReadRx (s : State) : Level × State :=
  (s.env.advance.rxLevel, (s.withEnv s.env.advance).emit (.gpioRead .rx s.env.advance.rxLevel))

/-- `Micros()` (R14, R53). -/
def State.readMicros (s : State) : Time × State :=
  (s.env.advance.micros, (s.withEnv s.env.advance).emit (.micros s.env.advance.micros))

/-- `Millis()` (R14, R53). -/
def State.readMillis (s : State) : Time × State :=
  (s.env.advance.millis, (s.withEnv s.env.advance).emit (.millis s.env.advance.millis))

/-- `DelayUs(n)` (R14, R77): at least `n` microseconds pass, here `n` and what the environment's next move adds (log 9). -/
def State.delayUs (n : Nat) (s : State) : State :=
  (s.withEnv { s.env with micros := s.env.micros + BitVec.ofNat 32 n }).emit (.delayUs n)

/-! ## Buffers and banks of the state -/

/-- Store a drained byte; a rejected write is ignored (R68). -/
def State.fbWrite (b : Byte) (s : State) : State := { s with fb := (s.fb.write s.cfg.nFb b).2 }

/-- Remove the oldest byte of `FB` (R63). -/
def State.fbDrop (s : State) : State := { s with fb := (s.fb.read s.cfg.nFb).2 }

/-- Push a marker; a rejected push is ignored (R144, D16). -/
def State.spPush (b : Byte) (s : State) : State := { s with sp := (s.sp.write Config.nSp b).2 }

/-- Pop a marker; a rejected read is ignored (R160, D23). -/
def State.spDrop (s : State) : State := { s with sp := (s.sp.read Config.nSp).2 }

/-- Write the detection state. -/
def State.setDet (d : Detector) (s : State) : State := { s with det := d }

/-- Enter a device state (R22). -/
def State.setDev (d : DevState) (s : State) : State := { s with devState := d }

/-- Overwrite the first bytes of a bank with `l`; the rest keeps its bytes. -/
def overlay {n : Nat} (l : List Byte) (v : Vector Byte n) : Vector Byte n :=
  ⟨((l ++ v.toList.drop l.length).take n).toArray, by simp; omega⟩

/-- A bank as a 64-bit port value: byte `i` is bits `8i+7 .. 8i` (R70, D38). -/
def Bank.pack (b : Bank) : BitVec 64 :=
  b.toList.foldr (fun v acc => acc <<< 8 ||| v.zeroExtend 64) 0

/-! ## Codes (10_state.md R21, R22) -/

/-- The code of a role (R21, D8). -/
def roleCode : Role → BitVec 1
  | .node => 0
  | .host => 1

/-- The code of a device state (R22, D7). -/
def DevState.code : DevState → BitVec 3
  | .powerOnReset => 0
  | .ready => 1
  | .txOff => 2
  | .operational => 3
  | .sleep => 4

/-! ## Ending an operation -/

/-- `busy` (R23): an operation is in progress. -/
def State.busy (s : State) : Bool :=
  match s.phase with
  | .idle => false
  | .waitLoop _ _ _ => true

/-- `cmd_ready` (R90): equal to `!busy`. -/
def State.cmdReady (s : State) : Bool := !s.busy

/-- `cmd_valid` (R90): the caller drives a command. -/
def State.cmdValid (s : State) : Bool := !s.cmds.isEmpty

/-- `return v` (R14, R90): write `result`, clear `busy`, pulse `rsp_valid`. -/
def State.finish (r : Result) (s : State) : State := { s with result := r, phase := .idle, rspValid := true }

/-- Widen a byte, a count or an identifier into the result with zeros (R95). -/
def zext16 (n : Nat) : Result := BitVec.ofNat 16 n

/-- The error kinds that reach the caller as a negative result (R250). Timeout is the result 0 of WAIT_FOR_DATA and
BufferOverflow never reaches the caller. -/
inductive ErrorKind
  | notReady
  | syncMismatch
  | parityMismatch
  | invalidArgument
  | notEnoughData
  | checksumMismatch
  | roleViolation
  deriving DecidableEq, Repr

/-- The number the operation returns (R250). -/
def ErrorKind.code : ErrorKind → Int
  | .notReady => -1
  | .syncMismatch => -3
  | .parityMismatch => -4
  | .invalidArgument => -1
  | .notEnoughData => -2
  | .checksumMismatch => -3
  | .roleViolation => -1

/-- `raise <Kind>(code)` (R252): `result <- sext_16(code)`, `busy <- 0`, pulse `rsp_valid`, and nothing else. This is
the engine's only exception entry; there is no return from it (R251, R254). -/
def State.raise (k : ErrorKind) (s : State) : State := s.finish (BitVec.ofInt 16 k.code)

/-- The PowerOnReset gate (R262): before the first BEGIN the operation is refused. -/
def State.afterBegin (s : State) (k : Out) : Out :=
  if s.devState = .powerOnReset then .refused .beforeBegin else k

/-- Accept the command `c` at the port, `rest` remaining (R78, R90): `WDATA` is latched and the response pulse is over. -/
def State.accept (c : Command) (rest : List Command) (s : State) : State :=
  { s with cmds := rest, wdata := c.wdata, rspValid := false }

/-- The response pulse is over (R90). -/
def State.endPulse (s : State) : State := { s with rspValid := false }

end Sys2Proof.Machine
end

