-- ==== Sys2Proof/Machine/Operands.lean ====
section
/-! DEFINITION. Operands and the pure functions over them: parity (45_checksum_parity.md R210), checksum (R212), data length code (R218), the protected identifier (44_host_transmit.md R191), bit timing (40_bit_timing.md R130 to R134) and the sleep payload (46_device_state.md R236). -/

namespace Sys2Proof.Machine

/-! ## The constants of the protocol (30_encoding.md R102) -/

/-- `SYNC`. -/
def syncByte : Byte := 0x55
/-- `WAKE_BYTE`. -/
def wakeByte : Byte := 0x80
/-- `SLEEP_ID`; larger than 63, kept as the source has it (C9). -/
def sleepId : Byte := 0x60
/-- `BREAK_BITS`. -/
def breakBits : Nat := 13
/-- `DELIM_BITS`. -/
def delimBits : Nat := 2
/-- `SPACE_BITS`. -/
def spaceBits : Nat := 2
/-- `BREAK_MIN_BITS`. -/
def breakMinBits : Nat := 11
/-- `HDR_MIN_BYTES`. -/
def hdrMinBytes : Nat := 3

/-! ## Parity and protected identifier -/

/-- `calcIDParity(id)` (R210): `p0` in bit 6, `p1` in bit 7; only bits 0 to 5 are read. -/
def calcIdParity (id : Byte) : Byte :=
  let p0 := id.getLsbD 0 ^^ id.getLsbD 1 ^^ id.getLsbD 2 ^^ id.getLsbD 4
  let p1 := !(id.getLsbD 1 ^^ id.getLsbD 3 ^^ id.getLsbD 4 ^^ id.getLsbD 5)
  BitVec.ofBool p1 ++ BitVec.ofBool p0 ++ 0#6

/-- The identifier of a protected identifier: its low six bits (R100). -/
def idOfPid (pid : Byte) : Byte := pid &&& 0x3F

/-- The parity bits of a protected identifier, in place (R160 step 8). -/
def parityOfPid (pid : Byte) : Byte := pid &&& 0xC0

/-- A received protected identifier is valid (R163). -/
def pidValid (pid : Byte) : Bool := parityOfPid pid = calcIdParity (idOfPid pid)

/-- The protected identifier sent for `id`, which is not masked (R191, D26). -/
def protectedId (id : Byte) : Byte := id ||| calcIdParity id

/-! ## Checksum -/

/-- One turn of the checksum's loop (R212): add the byte, then the end-around carry. -/
def addCarry (sum : Nat) (b : Byte) : Nat :=
  let t := sum + b.toNat
  if t > 255 then t % 256 + 1 else t

/-- The running sum of `data`, seeded (R212). -/
def checksumSum (data : List Byte) (seed : Option Byte) : Nat :=
  data.foldl addCarry (match seed with | none => 0 | some b => b.toNat)

/-- `checksum(data, n, seed)` (R212): capped at 8 bytes, complemented. -/
def checksum (data : List Byte) (n : Nat) (seed : Option Byte) : Byte :=
  ~~~ (BitVec.ofNat 8 (checksumSum (data.take (min n maxData)) seed))

/-! ## Data length code -/

/-- The advisory length of an identifier (R101, R218). -/
def dataLengthOf (pid : Byte) : Nat :=
  let dlc := (pid.extractLsb' 4 2).toNat
  if dlc = 0 ∨ dlc = 1 then 2 else if dlc = 2 then 4 else 8

/-! ## Bit timing -/

/-- The domain of `baud` (R131). -/
def baudOk (baud : BitVec 20) : Bool := decide (1 ≤ baud.toNat ∧ baud.toNat ≤ 1000000)

/-- The bit period in microseconds, rounded toward zero (R130). -/
def bitPeriod (baud : BitVec 20) : Time := BitVec.ofNat 32 (1000000 / baud.toNat)

/-- `n` bit periods in microseconds, without overflow (R133). -/
def State.bits (n : Nat) (s : State) : Nat := n * s.bitUs.toNat

/-- The limit of WAIT_FOR_DATA in milliseconds (R132, R180 step 2), without overflow. -/
def State.waitLimit (s : State) : Nat := s.bitUs.toNat * s.cfg.maxFrameBits / 1000

/-- The time from `t0` to `t1`, modulo `2^32` (R134). -/
def elapsed (t0 t1 : Time) : Nat := (t1 - t0).toNat

/-! ## Payloads -/

/-- `WDATA[0 .. len-1]` (R195, R214). -/
def State.payload (len : BitVec 4) (s : State) : List Byte := s.wdata.toList.take len.toNat

/-- The payload of the sleep command frame: zero, then `SLEEP_FILL` (R236). -/
def Config.sleepPayload (c : Config) : List Byte := 0 :: c.sleepFill.toList

end Sys2Proof.Machine
end

