-- ==== Sys2Proof/Machine/Checks.lean ====
section
/-! DEFINITION. The operations of the checksum and parity engine (45_checksum_parity.md): CALC_CHECKSUM, CALC_ID_PARITY and DATA_LENGTH_CODE. They run before BEGIN too (60_exceptions.md R262). -/

namespace Sys2Proof.Machine

/-- CALC_CHECKSUM (R214): null fails; else the checksum of the first `min len 8` bytes of `WDATA`. -/
def execCalcChecksum (buf : Buf) (len : BitVec 4) (seed : Option Byte) (s : State) : Out :=
  .next (match buf with
    | .null => s.raise .invalidArgument
    | .bank => s.finish (zext16 (checksum s.wdata.toList len.toNat seed).toNat))

/-- CALC_ID_PARITY (R210). -/
def execCalcIdParity (id : Byte) (s : State) : Out :=
  .next (s.finish (zext16 (calcIdParity id).toNat))

/-- DATA_LENGTH_CODE (R218). -/
def execDataLengthCode (pid : Byte) (s : State) : Out :=
  .next (s.finish (zext16 (dataLengthOf pid)))

end Sys2Proof.Machine
end

