-- ==== Sys2Proof/Machine/Flags.lean ====
section
/-! DEFINITION. The one-bit status fields (10_state.md R38; the engine has no condition codes): how a poll sets and clears `last_level`, `break_start_valid` and `break_confirmed` (41_detector.md R141, R142, R144). -/

namespace Sys2Proof.Machine

/-- `confirm_if_long(now)` (R142): a pulse strictly longer than `threshold` microseconds is a break. -/
def Detector.confirmIfLong (threshold : Nat) (now : Time) (d : Detector) : Detector :=
  if elapsed d.breakStart now > threshold then { d with breakConfirmed := true } else d

/-- The level changed to `lvl`, seen at `now` (R141 step 2): the one reading is the activity stamp, the candidate break
start and the end of the pulse (D20). -/
def Detector.levelChanged (threshold : Nat) (lvl : Level) (now : Time) (d : Detector) : Detector :=
  match lvl with
  | .low => { d with lastActivity := now, breakStart := now, breakStartValid := true, lastLevel := .low }
  | .high =>
    let d1 := { d with lastActivity := now, lastLevel := .high }
    if d1.breakStartValid then d1.confirmIfLong threshold now else d1

/-- Steps 1 and 2 of a poll (R141): one sample of RX; the clock is read once and only when the level changed. -/
def State.edge (s : State) : State :=
  let r := s.gpioReadRx
  if r.1 = s.det.lastLevel then r.2
  else
    let c := r.2.readMicros
    c.2.setDet (s.det.levelChanged (s.bits breakMinBits) r.1 c.1)

/-- Step 4 of a poll (R144): while a break is confirmed, a zero at the head of `FB` is consumed, its marker pushed, the
flag cleared and the frame start counted. Any other head, or none, changes nothing (D14, D15). -/
def State.matchRemnant (s : State) : State :=
  if s.det.breakConfirmed = true ∧ s.fb.peek = some 0 then
    (s.fbDrop.spPush (BitVec.ofNat 8 s.fbDrop.fb.tail)).setDet
      { s.det with breakConfirmed := false, breakCount := s.det.breakCount + 1 }
  else s

end Sys2Proof.Machine
end

