-- ==== Sys2Proof/Machine/Detector.lean ====
section
/-! DEFINITION. The break/sync detector (41_detector.md): the poll, AVAILABLE and DATA_AVAILABLE. -/

namespace Sys2Proof.Machine

/-- The loop of step 3 (R143): while the serial queue is not empty, read a byte and store it, a rejected write being
ignored (R68). `fuel` bounds the turns. -/
def State.drainLoop : Nat → State → State
  | 0, s => s
  | fuel + 1, s =>
    let c := s.serialCount
    if c.1 = 0 then c.2
    else
      match c.2.serialRead with
      | none => c.2
      | some (b, s1) => State.drainLoop fuel (s1.fbWrite b)

/-- Step 3 of a poll (R143). The environment's list of moves is finite, so the loop ends (U11): one turn for each byte
it will ever deliver, and the turn that finds the queue empty (log 12). -/
def State.drain (s : State) : State := s.drainLoop (s.env.supply + 1)

/-- `POLL()` (R140): steps 1 to 4 in order. -/
def State.poll (s : State) : State := s.edge.drain.matchRemnant

/-- `zext_16(SerialCount())` (R146): free for a count that does not fit in 15 bits (D40, log 11). -/
def hostCount (n : Nat) : Result := if n < 2 ^ 15 then zext16 n else Config.hostCountBeyond15 n

/-- The body of AVAILABLE by role (R140, R146): the count and the state after. -/
def State.availableBody (s : State) : Result × State :=
  match s.role with
  | .host => (hostCount s.serialCount.1, s.serialCount.2)
  | .node => (zext16 s.poll.det.breakCount.toNat, s.poll)

/-- AVAILABLE (R140, R145, R146). -/
def execAvailable (s : State) : Out :=
  s.afterBegin (.next (s.availableBody.2.finish s.availableBody.1))

/-- DATA_AVAILABLE (R148): the number of buffered bytes; no poll. -/
def execDataAvailable (s : State) : Out :=
  s.afterBegin (.next (s.finish (zext16 s.fb.len)))

end Sys2Proof.Machine
end

