-- ==== Sys2Proof/Machine/Header.lean ====
section
/-! DEFINITION. The header codec (42_header_codec.md): READ_ID. -/

namespace Sys2Proof.Machine

/-- READ_ID steps 5 to 9, the sync byte being consumed: drop a marker, take the protected identifier, check its parity
(R160). The 0 stands for a rejected read, which no state of R60 reaches (log 23). -/
def State.readPid (s : State) : State :=
  let s1 := s.spDrop
  let pid := (s1.fb.peek).getD 0
  let s2 := s1.fbDrop
  if pidValid pid then s2.finish (zext16 (idOfPid pid).toNat) else s2.raise .parityMismatch

/-- READ_ID steps 1 to 4, then the rest (R160). -/
def State.readHeader (s : State) : State :=
  if s.fb.len < hdrMinBytes then s.raise .notReady
  else
    let s1 := s.setDet { s.det with breakCount := s.det.breakCount - 1 }
    let b := (s1.fb.peek).getD 0
    let s2 := s1.fbDrop
    if b = syncByte then s2.readPid else s2.raise .syncMismatch

/-- READ_ID (R160, R162). -/
def execReadId (s : State) : Out := s.afterBegin (.next s.readHeader)

end Sys2Proof.Machine
end

