-- ==== Sys2Proof/Machine/Transmit.lean ====
section
/-! DEFINITION. The host transmit path (44_host_transmit.md): WRITE_HEADER and WRITE_DATA. -/

namespace Sys2Proof.Machine

/-- WRITE_HEADER steps 2 to 10 (R190): break, delimiter, sync byte, protected identifier. -/
def State.sendHeader (id : Byte) (s : State) : State :=
  s.serialTxStop
    |>.gpioWrite .tx .low
    |>.delayUs (s.bits breakBits)
    |>.gpioWrite .tx .high
    |>.delayUs (s.bits delimBits)
    |>.serialRestart
    |>.serialWrite syncByte
    |>.serialWrite (protectedId id)
    |>.serialFlush

/-- One payload byte and the space after it (R195 step 3, D25). -/
def State.sendByte (s : State) (b : Byte) : State :=
  (s.serialWrite b).delayUs (s.bits spaceBits)

/-- WRITE_DATA steps 2 to 5 (R195, R196): the bytes with their spaces, the classic checksum, flush. -/
def State.sendPayload (data : List Byte) (s : State) : State :=
  ((data.foldl State.sendByte s).serialWrite (checksum data data.length none)).serialFlush

/-- WRITE_HEADER (R190). -/
def execWriteHeader (id : Byte) (s : State) : Out :=
  s.afterBegin (.next (match s.role with
    | .node => s.raise .roleViolation
    | .host => (s.sendHeader id).finish 0))

/-- WRITE_DATA (R195); no role check (R197, C4); a length above 8 is a reserved encoding (R97). -/
def execWriteData (buf : Buf) (len : BitVec 4) (s : State) : Out :=
  if lenOk len then
    s.afterBegin (.next (match buf with
      | .null => s.raise .invalidArgument
      | .bank => (s.sendPayload (s.payload len)).finish (zext16 len.toNat)))
  else .refused (.reservedEncoding .lengthOutOfDomain)

end Sys2Proof.Machine
end

