-- ==== Sys2Proof/Machine/Lifecycle.lean ====
section
/-! DEFINITION. The device state machine (46_device_state.md): BEGIN, SLEEP, WAKE and LIN_VERSION. -/

namespace Sys2Proof.Machine

/-- The detection state after BEGIN (R40, R230 step 7). -/
def Detector.cleared : Detector :=
  { lastLevel := .high, lastActivity := 0, breakStart := 0, breakStartValid := false, breakConfirmed := false,
    breakCount := 0 }

/-- BEGIN step 1 (R230, R130): the role, the rate and the bit period. -/
def State.setLink (baud : BitVec 20) (isHost : Bool) (s : State) : State :=
  { s with role := if isHost then .host else .node, baud := baud, bitUs := bitPeriod baud }

/-- BEGIN steps 2 to 5 (R230): pin directions and the serial peripheral. -/
def State.configure (s : State) : State :=
  let s1 := (s.setPinMode .rx .input).setPinMode .cs .output
  let s2 := if s.cfg.hasTx then s1.setPinMode .tx .output else s1
  s2.serialBegin s.baud

/-- BEGIN steps 6 and 7 (R230): both buffers empty, the detection state cleared. -/
def State.clearReception (s : State) : State :=
  { s with fb := s.fb.clear, sp := s.sp.clear, det := Detector.cleared }

/-- BEGIN steps 1 to 10 (R230, R232). -/
def State.initialise (baud : BitVec 20) (isHost : Bool) (s : State) : State :=
  (((s.setLink baud isHost).configure.clearReception.gpioWrite .cs .high).setDev .ready).finish 0

/-- BEGIN (R230); operands outside the domain are refused (R231). -/
def execBegin (baud : BitVec 20) (isHost : Bool) (s : State) : Out :=
  if baudOk baud then
    if isHost ∧ s.cfg.hasTx = false then .refused .hostWithoutTx else .next (s.initialise baud isHost)
  else .refused .baudOutOfDomain

/-- The sleep command frame (R236): identifier 0x60 and the constant payload, the inner results dropped (D43). -/
def State.sendSleepFrame (s : State) : State :=
  (s.sendHeader sleepId).sendPayload (Config.sleepPayload s.cfg)

/-- SLEEP (R234): a forced Host sends the sleep command frame first. -/
def execSleep (force : Bool) (s : State) : Out :=
  s.afterBegin
    (let s1 := if force ∧ s.role = .host then s.sendSleepFrame else s
     .next (((s1.gpioWrite .cs .low).setDev .sleep).finish 0))

/-- WAKE (R238): a Node with a TX line then sends the wake byte. -/
def execWake (s : State) : Out :=
  s.afterBegin
    (let s1 := (s.gpioWrite .cs .high).setDev .ready
     let s2 := if s.role = .node ∧ s.cfg.hasTx then (s1.serialWrite wakeByte).serialFlush else s1
     .next (s2.finish 0))

/-- LIN_VERSION (R242): write if a value is given, then read. -/
def execLinVersion (write : Option Byte) (s : State) : Out :=
  match write with
  | some v => .next (State.finish (zext16 v.toNat) { s with linVersion := v })
  | none => .next (s.finish (zext16 s.linVersion.toNat))

end Sys2Proof.Machine
end

