-- ==== Sys2Proof/Machine/Payload.lean ====
section
/-! DEFINITION. The payload codec and the blocking wait (43_payload_codec.md): READ_DATA and WAIT_FOR_DATA. -/

namespace Sys2Proof.Machine

/-- READ_DATA step 3 (R171): `len + 1` bytes of `FB`, oldest first, into `scratch`. -/
def State.popPayload (len : Nat) (s : State) : State :=
  let r := Ring.pop s.cfg.nFb (len + 1) s.fb
  { s with fb := r.2, scratch := overlay r.1 s.scratch }

/-- READ_DATA steps 4 to 7 (R172 to R174): compare the classic checksum, then copy. -/
def State.checkPayload (len : Nat) (s : State) : State :=
  let data := s.scratch.toList.take len
  if checksum data len none = s.scratch.toList.getD len 0 then
    State.finish (zext16 len) { s with rdata := overlay data s.rdata }
  else s.raise .checksumMismatch

/-- READ_DATA for an admitted length (R170): null first, then the length, then the checksum (R258). -/
def State.readPayload (buf : Buf) (len : Nat) (s : State) : State :=
  match buf with
  | .null => s.raise .invalidArgument
  | .bank => if s.fb.len ≤ len then s.raise .notEnoughData else (s.popPayload len).checkPayload len

/-- READ_DATA (R170, R173); a length above 8 is a reserved encoding (R97). -/
def execReadData (buf : Buf) (len : BitVec 4) (s : State) : Out :=
  if lenOk len then s.afterBegin (.next (s.readPayload buf len.toNat))
  else .refused (.reservedEncoding .lengthOutOfDomain)

/-- One turn of the loop of WAIT_FOR_DATA, steps 3 to 6 (R180): length, then time, then one poll in its role-dependent
form (R181, C6), the result discarded. -/
def State.waitTurn (size : Byte) (t0 : Time) (limit : Nat) (s : State) : State :=
  if s.fb.len ≥ size.toNat + 1 then s.finish 1
  else
    let c := s.readMillis
    if elapsed t0 c.1 > limit then c.2.finish 0
    else { c.2.availableBody.2 with phase := .waitLoop size t0 limit }

/-- WAIT_FOR_DATA (R180): steps 1 and 2 and the first turn; each later turn is a step of its own (R182). -/
def execWaitForData (size : Byte) (s : State) : Out :=
  s.afterBegin (.next (s.readMillis.2.waitTurn size s.readMillis.1 s.waitLimit))

end Sys2Proof.Machine
end

