-- ==== Sys2Proof/Machine/Dispatch.lean ====
section
/-! DEFINITION. Dispatch (30_encoding.md R93, R106): one arm per operation. -/

namespace Sys2Proof.Machine

-- The meaning of an operation that the port has accepted.
def exec (i : Instr) (s : State) : Host.Outcome State Fault Refusal :=
  match i with
  | .beginOp baud isHost => Sys2Proof.Machine.execBegin baud isHost s
  | .sleep force => Sys2Proof.Machine.execSleep force s
  | .wake => Sys2Proof.Machine.execWake s
  | .available => Sys2Proof.Machine.execAvailable s
  | .dataAvailable => Sys2Proof.Machine.execDataAvailable s
  | .waitForData size => Sys2Proof.Machine.execWaitForData size s
  | .readId => Sys2Proof.Machine.execReadId s
  | .readData buf len => Sys2Proof.Machine.execReadData buf len s
  | .writeHeader id => Sys2Proof.Machine.execWriteHeader id s
  | .writeData buf len => Sys2Proof.Machine.execWriteData buf len s
  | .calcChecksum buf len seed => Sys2Proof.Machine.execCalcChecksum buf len seed s
  | .calcIdParity id => Sys2Proof.Machine.execCalcIdParity id s
  | .dataLengthCode pid => Sys2Proof.Machine.execDataLengthCode pid s
  | .linVersion write => Sys2Proof.Machine.execLinVersion write s

end Sys2Proof.Machine
end

