-- ==== Sys2Proof/Machine/Step.lean ====
section
/-! DEFINITION. One step of the engine at its command port (30_encoding.md R90, 43_payload_codec.md R182). -/

namespace Sys2Proof.Machine

/-- One step. Busy: the next turn of the wait in progress (R182). Idle: accept the command at the port and run it to its
end (R90), refuse it if its word is reserved (R96), or wait for one (R290). -/
def step (s : State) : Host.Outcome State Fault Refusal :=
  match s.phase with
  | .waitLoop size t0 limit => .next (s.endPulse.waitTurn size t0 limit)
  | .idle =>
    match s.cmds with
    | [] => .next s.endPulse
    | c :: rest =>
      match decode c.word with
      | .error e => .refused (.reservedEncoding e)
      | .ok i => exec i (s.accept c rest)

/-- The caller drives the word `w` of `nbits` bits at the port of an idle engine, `WDATA` as it stands (R90, log 1). -/
def State.withFetchWord (s : State) (nbits w : Nat) : State :=
  { s with phase := .idle, cmds := { word := BitVec.ofNat 32 (w % 2 ^ nbits), wdata := s.wdata } :: s.cmds }

end Sys2Proof.Machine
end

