-- ==== Sys2Proof/Safety.lean ====
section
/-! DEFINITION. What holds of the engine between two steps (20_memory.md R60, 10_state.md R37 and R40, 46_device_state.md R240, 60_exceptions.md R254): the invariant the claims use. -/

namespace Sys2Proof.Machine

/-- The device state is one the field ever holds (R22, R98, R240). -/
abbrev DevState.Legal (d : DevState) : Prop := d = .powerOnReset ∨ d = .ready ∨ d = .sleep

/-- Both buffers satisfy the invariant of R60. -/
abbrev State.BuffersOk (s : State) : Prop := s.fb.wf s.cfg.nFb ∧ s.sp.wf Config.nSp

/-- What BEGIN establishes and every later operation keeps (R24, R25, R40, R231, R240). -/
structure State.Begun (s : State) : Prop where
  buffers : s.BuffersOk
  baud : baudOk s.baud
  bitUs : s.bitUs = bitPeriod s.baud
  hostTx : s.role = .host → s.cfg.hasTx
  modeRx : s.pins.modeRx = .input
  modeCs : s.pins.modeCs = .output
  modeTx : s.pins.modeTx = if s.cfg.hasTx then .output else .unset
  csReady : s.devState = .ready → s.pins.csLevel = .high
  csSleep : s.devState = .sleep → s.pins.csLevel = .low
  txOwner : s.pins.txOwner = .serial

/-- The invariant of the machine between two steps. -/
structure State.Inv (s : State) : Prop where
  cfg : s.cfg.Ok
  dev : s.devState.Legal
  mem : s.fb.mem.wf ∧ s.sp.mem.wf
  inCapacity : (∀ c ∈ s.fb.mem, c.1 < s.cfg.nFb) ∧ ∀ c ∈ s.sp.mem, c.1 < Config.nSp
  idle : s.devState = .powerOnReset → s.busy = false ∧ s.pins.modeRx = .unset ∧ s.pins.modeCs = .unset ∧ s.pins.modeTx = .unset
  nothingPending : s.env.txPending = []
  begun : s.devState ≠ .powerOnReset → s.Begun

end Sys2Proof.Machine
end

