-- ==== Sys2Proof/Certificates/Slice0/Obligations.lean ====
section
/-! DEFINITION. The statements about the model, one definition each, taken from the numbered rules of spec/. Nothing is proved here. A statement quantifies over every state, hence over every configuration, every environment and every caller; `{ s with … }` names every field that changes, so it is also the frame. -/

open Sys2Proof Sys2Proof.Machine

/-! ## Encoding (30_encoding.md) -/

/-- R91, R93, R94, R97: no bit of an encoding is dropped: the command word of an operation decodes to that operation. -/
def Obligations.DecodeUndoesEncode : Prop :=
  ∀ i : Instr, i.wellFormed = true → decode (encode i) = .ok i

/-- R91 to R97: every word the decoder accepts is the command word of the operation it gives, and of no other. -/
def Obligations.DecodedWordIsTheEncoding : Prop :=
  ∀ (w : Word) (i : Instr), decode w = .ok i → i.wellFormed = true ∧ encode i = w

/-- What a row's `constraint` adds to `match` and `mask` (R93): lengths 0 to 8 for READ_DATA and WRITE_DATA (R97), no
seed without `FLG` (R214), no value without `FLG` (R242). BEGIN's constraint is not one of decoding (R93, R231). -/
def Sys2Proof.rowConstraint (w : Word) : Instr → Prop
  | .readData _ _ => (fieldLen w).toNat ≤ 8
  | .writeData _ _ => (fieldLen w).toNat ≤ 8
  | .calcChecksum _ _ _ => fieldFlg w = 0 → argByte (fieldArg w) = 0
  | .linVersion _ => fieldFlg w = 0 → argByte (fieldArg w) = 0
  | .beginOp _ _ => True
  | .sleep _ => True
  | .wake => True
  | .available => True
  | .dataAvailable => True
  | .waitForData _ => True
  | .readId => True
  | .writeHeader _ => True
  | .calcIdParity _ => True
  | .dataLengthCode _ => True

/-- R93: the decoder gives an operation of a row exactly for the words `w` with `w & mask == match` that keep the
row's constraint. -/
def Obligations.DecodeFollowsTheOpcodeMap : Prop :=
  ∀ (i : Instr) (w : Word), (∃ j, decode w = .ok j ∧ rowOf j = rowOf i) ↔
    w &&& (rowOf i).2 = (rowOf i).1 ∧ rowConstraint w i

/-- A reserved command word, read off the field table of R91 and the opcode map of R93 (R92, R96, R97): `RSV` not zero,
a reserved opcode, a field that the operation does not use not zero, or a length of READ_DATA or WRITE_DATA above 8. -/
def Sys2Proof.reservedWord (w : Word) : Prop :=
  let op := (fieldOp w).toNat
  fieldRsv w ≠ 0 ∨ op = 0 ∨ op = 15 ∨
    (op ∈ [8, 10] ∧ 8 < (fieldLen w).toNat) ∨
    (op ∉ [8, 10, 11] ∧ (fieldLen w ≠ 0 ∨ fieldNul w ≠ 0)) ∨
    (op ∉ [1, 2, 11, 14] ∧ fieldFlg w ≠ 0) ∨
    (op ≠ 1 ∧ argHigh (fieldArg w) ≠ 0) ∨
    (op ∉ [1, 6, 9, 11, 12, 13, 14] ∧ argByte (fieldArg w) ≠ 0) ∨
    (op ∈ [11, 14] ∧ fieldFlg w = 0 ∧ argByte (fieldArg w) ≠ 0)

/-- R92, R96, R97, the spec's decisions D24 and D30 ("a model refuses it"): the engine refuses a reserved word at the
port, with no result and no other effect. -/
def Obligations.ReservedWordsAreRefused : Prop :=
  ∀ (s : State) (c : Command) (rest : List Command), s.phase = .idle → s.cmds = c :: rest → reservedWord c.word →
    ∃ e, step s = .refused (.reservedEncoding e)

/-- R97, the spec's decision D24: READ_DATA and WRITE_DATA with `LEN` 9 to 15 are reserved; CALC_CHECKSUM with such a
length is the one with 8. -/
def Obligations.LongPayloadLengthsAreReserved : Prop :=
  ∀ (s : State) (buf : Buf) (len : BitVec 4) (seed : Option Byte), 8 < len.toNat →
    exec (.readData buf len) s = .refused (.reservedEncoding .lengthOutOfDomain) ∧
    exec (.writeData buf len) s = .refused (.reservedEncoding .lengthOutOfDomain) ∧
    (∀ w, fieldLen w = len → fieldOp w = 8 ∨ fieldOp w = 10 → ∀ i, decode w ≠ .ok i) ∧
    exec (.calcChecksum buf len seed) s = exec (.calcChecksum buf 8 seed) s

/-- Words written out from the field table of R91 (95_test_vectors.md section 2.12) decode to their operations. -/
def Obligations.WrittenWordsDecode : Prop :=
  decode 0b0001_0000_0_1_00_00000100101100000000 = .ok (.beginOp 19200 true) ∧
  decode 0b0110_0000_0_0_00_00000000000000000010 = .ok (.waitForData 2) ∧
  decode 0b1000_0010_1_0_00_00000000000000000000 = .ok (.readData .null 2) ∧
  decode 0b1001_0000_0_0_00_00000000000000000001 = .ok (.writeHeader 1) ∧
  decode 0b1011_0010_0_1_00_00000000000011000001 = .ok (.calcChecksum .bank 2 (some 0xC1)) ∧
  decode 0b1110_0000_0_1_00_00000000000000010101 = .ok (.linVersion (some 21))

/-! ## The step and the port (30_encoding.md R90) -/

/-- R90, the spec's decision D1: an idle engine accepts the command at the port, latches `WDATA`, and runs the
operation the word decodes to. That the coming commands are a list whose first is accepted is log 1's, and that the
response pulse is over then is log 14's: the model's choices. -/
def Obligations.StepRunsTheDecodedCommand : Prop :=
  ∀ (s : State) (c : Command) (rest : List Command) (i : Instr),
    s.phase = .idle → s.cmds = c :: rest → decode c.word = .ok i →
    step s = exec i { s with cmds := rest, wdata := c.wdata, rspValid := false }

/-- R290: without a command the engine waits; only the response pulse of R90 ends, after one step (the model's choice,
log 14). -/
def Obligations.IdleEngineWaits : Prop :=
  ∀ s : State, s.phase = .idle → s.cmds = [] → step s = .next { s with rspValid := false }

/-- R78, the spec's decision D41: the port refuses a new command while `busy = 1`, and what the caller drives then is
not seen by the operation in progress: another list of commands (log 1, the model's choice) changes nothing in the step
but that list itself. -/
def Obligations.BusyEngineSeesNoCommand : Prop :=
  ∀ (s : State) (cs : List Command), s.busy = true →
    s.cmdReady = false ∧ ∃ t, step s = .next t ∧ t.cmds = s.cmds ∧ t.wdata = s.wdata ∧
      step { s with cmds := cs } = .next { t with cmds := cs }

/-- R251, R252, R106: an operation that ends leaves the engine idle with the response pulsed; only WAIT_FOR_DATA may
go on, and then with its own size, its own start and its own limit. That every other operation, the blocking
transmissions too, has ended when `exec` answers is log 10's, that the wait's operands stand in `phase` is log 21's, and
that its start is the clock after exactly one move of the environment is log 6's: the model's choices. -/
def Obligations.EndedOperationsLeaveTheEngineIdle : Prop :=
  ∀ (i : Instr) (s t : State), exec i s = .next t →
    (t.busy = false ∧ t.rspValid = true) ∨
    ∃ size, i = .waitForData size ∧
      t.phase = .waitLoop size s.env.advance.millis (s.bitUs.toNat * s.cfg.maxFrameBits / 1000)

/-- R70, R90, the spec's decision D38: byte `i` of a bank is bits `8i+7 .. 8i` of its 64-bit port value. -/
def Obligations.PortPacksTheBanks : Prop :=
  ∀ (b : Bank) (i : Nat) (h : i < 8), (Bank.pack b).extractLsb' (8 * i) 8 = b[i]

/-! ## Ring buffers (20_memory.md) -/

/-- R62: a write when full is rejected and changes nothing; any other stores the byte at the tail, moves the tail on
modulo the capacity and counts it; every other byte of the store reads as before. -/
def Obligations.RingWriteStoresAtTheTail : Prop :=
  ∀ (n : Nat) (b : Ring) (v : Byte), b.wf n = true →
    (b.len = n → b.write n v = (false, b)) ∧
    (b.len ≠ n → ∃ c, b.write n v = (true, c) ∧ c.head = b.head ∧ c.tail = (b.tail + 1) % n ∧ c.len = b.len + 1 ∧
      ∀ a, c.mem.read a = if a = b.tail then v else b.mem.read a)

/-- R63: a read when empty is rejected and changes nothing; any other returns the byte at the head, moves the head on
modulo the capacity and counts it down; the store is not written. -/
def Obligations.RingReadTakesTheHead : Prop :=
  ∀ (n : Nat) (b : Ring), b.wf n = true →
    (b.len = 0 → b.read n = (none, b)) ∧
    (b.len ≠ 0 → ∃ c, b.read n = (some (b.mem.read b.head), c) ∧
      c.head = (b.head + 1) % n ∧ c.tail = b.tail ∧ c.len = b.len - 1 ∧ c.mem = b.mem ∧ c.wf n = true)

/-- R64, the spec's decision D14: a peek shows the byte the next read returns, the oldest, and nothing when empty. -/
def Obligations.PeekShowsTheOldestByte : Prop :=
  ∀ (n : Nat) (b : Ring), b.wf n = true → b.peek = (b.content n).head? ∧ b.peek = (b.read n).1

/-- A call on a ring buffer. -/
inductive Sys2Proof.Machine.RingCall
  | write (v : Byte)
  | read
  deriving DecidableEq, Repr

/-- A run of calls: the bytes of the accepted writes, the bytes the accepted reads returned, the buffer after. -/
def Sys2Proof.Machine.Ring.run (n : Nat) : List RingCall → Ring → List Byte × List Byte × Ring
  | [], b => ([], [], b)
  | .write v :: cs, b =>
    let r := b.write n v
    let t := Ring.run n cs r.2
    ((if r.1 then [v] else []) ++ t.1, t.2.1, t.2.2)
  | .read :: cs, b =>
    let r := b.read n
    let t := Ring.run n cs r.2
    (t.1, r.1.toList ++ t.2.1, t.2.2)

/-- R67, which the spec derives from R60, R62 and R63: first in, first out: over any calls, what was held and then
accepted is what is returned and then still held, in the same order, each byte once. From a cleared buffer the
returned bytes are the first of the accepted ones. -/
def Obligations.RingIsFirstInFirstOut : Prop :=
  ∀ (n : Nat) (b : Ring) (cs : List RingCall), b.wf n = true →
    b.content n ++ (b.run n cs).1 = (b.run n cs).2.1 ++ (b.run n cs).2.2.content n ∧ (b.run n cs).2.2.wf n = true

/-- R65, which the spec derives from R62 and R63: `B.len` is the number of bytes written and not yet read, over any
calls since the clear, and never above the capacity. -/
def Obligations.RingLengthCountsAcceptedCalls : Prop :=
  ∀ (n : Nat) (b : Ring) (cs : List RingCall), b.wf n = true →
    (b.clear.run n cs).2.2.len = (b.clear.run n cs).1.length - (b.clear.run n cs).2.1.length ∧
    (b.clear.run n cs).2.1.length ≤ (b.clear.run n cs).1.length ∧ (b.clear.run n cs).2.2.len ≤ n

/-! ## The detector (41_detector.md) -/

/-- R146: in the Host role AVAILABLE makes one call and reports its answer; it changes no state but the result. Where
the count does not fit in 15 bits (the spec's decision D40) the result is free (the model's choice, log 11); that the
environment makes one move at the call is log 6's. -/
def Obligations.AvailableOnAHostReportsTheQueue : Prop :=
  ∀ s : State, s.devState ≠ .powerOnReset → s.role = .host →
    exec .available s = .next { s with
      env := s.env.advance
      trace := s.trace ++ [.serialCount s.env.advance.rxQueue.length]
      result := if s.env.advance.rxQueue.length < 2 ^ 15 then BitVec.ofNat 16 s.env.advance.rxQueue.length
                else Config.hostCountBeyond15 s.env.advance.rxQueue.length
      phase := .idle
      rspValid := true }

/-- The calls of a drain that takes `m` bytes, from the environment `e` (R143; one move at each `SerialCount`, log 6):
before byte `j` the answer is the number of bytes that have come less the `j` taken, then that byte is read; the last
answer is 0. -/
def Sys2Proof.Machine.drainCalls (m : Nat) (e : Env) : List Event :=
  ((List.range m).flatMap fun j => [.serialCount ((Env.advance^[j + 1] e).rxQueue.length - j),
    .serialRead ((Env.advance^[m + 1] e).rxQueue.getD j 0)]) ++ [.serialCount 0]

/-- R140 to R145: AVAILABLE on a Node runs the four steps of the poll and answers the break counter. With `lvl` the
one sample of RX and `now` the one reading of the clock, made only on a change: the detection state follows the level
(R141); a dominant pulse strictly longer than 11 bit periods confirms a break (R142); the serial queue is drained, in
order, with all that arrives meanwhile, into what room `FB` has, count and read in turn until the count is 0 (R143, R68):
`m` is the number of bytes drained, each call as `drainCalls` says; a confirmed break whose zero is the oldest byte is
consumed, its marker pushed, the flag cleared and the frame start counted (R144). No other byte of a store changes. The
decisions D14 to D21 of the spec fix the corners. The model's choices: the environment makes one move at each answer
(log 6), and the drain ends because the moves are a finite list (log 12). -/
def Obligations.AvailableOnANodeRunsTheFourSteps : Prop :=
  ∀ s : State, s.devState ≠ .powerOnReset → s.role = .node → s.BuffersOk →
    let lvl := s.env.advance.rxLevel
    let now := s.env.advance.advance.micros
    let changed := lvl ≠ s.det.lastLevel
    let confirmed := s.det.breakConfirmed = true ∨
      (changed ∧ lvl = .high ∧ s.det.breakStartValid = true ∧
        11 * s.bitUs.toNat < (now - s.det.breakStart).toNat)
    let e := if changed then s.env.advance.advance else s.env.advance
    ∃ (t : State) (m : Nat),
      exec .available s = .next t ∧
      t.trace = s.trace ++ (.gpioRead .rx lvl :: (if changed then [.micros now] else [])) ++ drainCalls m e ∧
      (∀ j < m, j < (Env.advance^[j + 1] e).rxQueue.length) ∧
      (Env.advance^[m + 1] e).rxQueue.length = m ∧
      t.env = { Env.advance^[m + 1] e with rxQueue := [] } ∧
      (let held := (s.fb.content s.cfg.nFb ++ (Env.advance^[m + 1] e).rxQueue).take s.cfg.nFb
       let matched := confirmed ∧ held.head? = some 0
       t.fb.content s.cfg.nFb = (if matched then held.tail else held) ∧
       let stored := held.length - s.fb.len
       let pushed := matched ∧ s.sp.len ≠ 8
       t.fb.head = (s.fb.head + if matched then 1 else 0) % s.cfg.nFb ∧
       t.fb.tail = (s.fb.tail + stored) % s.cfg.nFb ∧
       (∀ a, (∀ i < stored, a ≠ (s.fb.tail + i) % s.cfg.nFb) → t.fb.mem.read a = s.fb.mem.read a) ∧
       t.sp.content Config.nSp = s.sp.content Config.nSp ++ (if pushed then [BitVec.ofNat 8 t.fb.tail] else []) ∧
       t.sp.head = s.sp.head ∧
       (∀ a, ¬ (pushed ∧ a = s.sp.tail) → t.sp.mem.read a = s.sp.mem.read a) ∧
       t.det = {
         lastLevel := lvl
         lastActivity := if changed then now else s.det.lastActivity
         breakStart := if changed ∧ lvl = .low then now else s.det.breakStart
         breakStartValid := s.det.breakStartValid || decide (changed ∧ lvl = .low)
         breakConfirmed := decide (confirmed ∧ ¬ matched)
         breakCount := s.det.breakCount + if matched then 1 else 0 }) ∧
      t.BuffersOk ∧
      t = { s with fb := t.fb, sp := t.sp, det := t.det, trace := t.trace, env := t.env,
                   result := BitVec.ofNat 16 t.det.breakCount.toNat, phase := .idle, rspValid := true }

/-- R76, R147 (last row, derived by the spec): re-polling is harmless: a poll right after a poll that sees the level the
first one recorded and no new byte asks again and changes nothing else, whatever the first one saw. That the environment
makes one move at each of the two answers, in which the clocks may go on, is log 6's, the model's choice; with the moves
used up the premises say that the environment is silent. -/
def Obligations.RepollingIsHarmless : Prop :=
  ∀ s t : State, s.devState ≠ .powerOnReset → s.role = .node → s.BuffersOk → exec .available s = .next t →
    t.env.advance.rxLevel = t.det.lastLevel → t.env.advance.advance.rxQueue = [] →
    exec .available t = .next { t with
      env := t.env.advance.advance
      trace := t.trace ++ [.gpioRead .rx t.env.advance.rxLevel, .serialCount 0] }

/-- R148, the spec's decision D44: DATA_AVAILABLE is the number of buffered bytes, 0 to `N_FB`, exactly; it polls
nothing and is not gated by the role. -/
def Obligations.DataAvailableCountsTheBuffer : Prop :=
  encode .dataAvailable = 0x50000000 ∧
  ∀ s : State, s.devState ≠ .powerOnReset →
    exec .dataAvailable s = .next { s with result := BitVec.ofNat 16 s.fb.len, phase := .idle, rspValid := true } ∧
    (s.cfg.Ok → s.BuffersOk → (BitVec.ofNat 16 s.fb.len).toNat = (s.fb.content s.cfg.nFb).length)

/-! ## The header codec (42_header_codec.md) -/

/-- R162: the four outcomes of READ_ID: what it answers, what it removes from `FB` and `SP`, what it does to the
counter, and that nothing else changes. -/
def Obligations.ReadIdOutcomes : Prop :=
  ∀ s : State, s.devState ≠ .powerOnReset → s.BuffersOk →
    ∃ t, exec .readId s = .next t ∧ t.BuffersOk ∧
      (s.fb.len < 3 → t = { s with result := 0xFFFF, phase := .idle, rspValid := true }) ∧
      (∀ b rest, 3 ≤ s.fb.len → s.fb.content s.cfg.nFb = b :: rest → b ≠ 0x55 →
        t.fb.content s.cfg.nFb = rest ∧
        t = { s with fb := { s.fb with head := (s.fb.head + 1) % s.cfg.nFb, len := s.fb.len - 1 },
                     det := { s.det with breakCount := s.det.breakCount - 1 },
                     result := 0xFFFD, phase := .idle, rspValid := true }) ∧
      (∀ pid rest, 3 ≤ s.fb.len → s.fb.content s.cfg.nFb = 0x55 :: pid :: rest →
        t.fb.content s.cfg.nFb = rest ∧ t.sp.content Config.nSp = (s.sp.content Config.nSp).tail ∧
        t = { s with fb := { s.fb with head := (s.fb.head + 2) % s.cfg.nFb, len := s.fb.len - 2 },
                     sp := if s.sp.len = 0 then s.sp
                           else { s.sp with head := (s.sp.head + 1) % 8, len := s.sp.len - 1 },
                     det := { s.det with breakCount := s.det.breakCount - 1 },
                     result := if pid &&& 0xC0 = calcIdParity (pid &&& 0x3F) then (pid &&& 0x3F).zeroExtend 16
                               else 0xFFFC,
                     phase := .idle, rspValid := true })

/-- R163, its count derived by the spec from R210: a received protected identifier is valid iff its top two bits equal
the parity computed from its low six bits; of the 256 bytes 64 are valid, one for each identifier. -/
def Obligations.ValidProtectedIdentifiers : Prop :=
  (∀ pid : Byte, pidValid pid = true ↔ pid.extractLsb' 6 2 = (calcIdParity (pid &&& 0x3F)).extractLsb' 6 2) ∧
  ((List.range 256).filter fun n => pidValid (BitVec.ofNat 8 n)).length = 64 ∧
  ∀ id : BitVec 6, pidValid (calcIdParity (id.zeroExtend 8) ||| id.zeroExtend 8) = true

/-- R211, derived by the spec from R210: the parity of the two formulas is recovered from a protected identifier, for
every identifier 0 to 63. -/
def Obligations.ParityRoundTrip : Prop :=
  ∀ id : BitVec 6,
    let pid := id.zeroExtend 8 ||| calcIdParity (id.zeroExtend 8)
    pid &&& 0x3F = id.zeroExtend 8 ∧ calcIdParity (pid &&& 0x3F) = pid &&& 0xC0 ∧ pidValid pid = true ∧
    pid.getLsbD 6 = (id.getLsbD 0 ^^ id.getLsbD 1 ^^ id.getLsbD 2 ^^ id.getLsbD 4) ∧
    pid.getLsbD 7 = !(id.getLsbD 1 ^^ id.getLsbD 3 ^^ id.getLsbD 4 ^^ id.getLsbD 5)

/-! ## The payload codec and the wait (43_payload_codec.md) -/

/-- R170 to R174 and R258: the four outcomes of READ_DATA for an admitted length: what it answers, the `len + 1` bytes it
takes from `FB` into `scratch`, the classic checksum it compares, the bytes it copies into `RDATA`, and that nothing else
changes. That null wins over NotEnoughData is the order of R170, the spec's decision D23; that the rest of `scratch` keeps
its bytes is log 17's, the model's inference. -/
def Obligations.ReadDataOutcomes : Prop :=
  ∀ (s : State) (buf : Buf) (len : BitVec 4), s.devState ≠ .powerOnReset → s.BuffersOk → len.toNat ≤ 8 →
    let held := s.fb.content s.cfg.nFb
    let n := len.toNat
    ∃ t, exec (.readData buf len) s = .next t ∧ t.BuffersOk ∧
      (buf = .null → t = { s with result := 0xFFFF, phase := .idle, rspValid := true }) ∧
      (buf = .bank → s.fb.len ≤ n → t = { s with result := 0xFFFE, phase := .idle, rspValid := true }) ∧
      (buf = .bank → n < s.fb.len →
        t.fb.content s.cfg.nFb = held.drop (n + 1) ∧
        t.fb = { s.fb with head := (s.fb.head + (n + 1)) % s.cfg.nFb, len := s.fb.len - (n + 1) } ∧
        (∀ i (h : i < 9), t.scratch[i] = if i ≤ n then held.getD i 0 else s.scratch[i]) ∧
        (checksum (held.take n) n none ≠ held.getD n 0 →
          t = { s with fb := t.fb, scratch := t.scratch, result := 0xFFFD, phase := .idle, rspValid := true }) ∧
        (checksum (held.take n) n none = held.getD n 0 →
          (∀ i (h : i < 8), t.rdata[i] = if i < n then held.getD i 0 else s.rdata[i]) ∧
          t = { s with fb := t.fb, scratch := t.scratch, rdata := t.rdata, result := len.zeroExtend 16,
                       phase := .idle, rspValid := true }))

/-- R180, R183, the spec's decision D22: with enough bytes on entry WAIT_FOR_DATA answers 1 at once: one reading of
the clock, no poll. That the environment makes one move at the reading is log 6's, the model's choice. -/
def Obligations.WaitOnBufferedBytesEndsAtOnce : Prop :=
  ∀ (s : State) (size : Byte), s.devState ≠ .powerOnReset → size.toNat + 1 ≤ s.fb.len →
    exec (.waitForData size) s = .next { s with
      env := s.env.advance, trace := s.trace ++ [.millis s.env.advance.millis],
      result := 1, phase := .idle, rspValid := true }

/-- R180 steps 1 and 2, the spec's decision D22: WAIT_FOR_DATA reads the clock once, takes its limit in milliseconds from
the bit period, and goes into its loop, whose first turn belongs to the same step. The split into steps is log 10's, the
one move at the reading log 6's: the model's choices. -/
def Obligations.WaitEntersItsLoop : Prop :=
  ∀ (s : State) (size : Byte), s.devState ≠ .powerOnReset → s.rspValid = false →
    exec (.waitForData size) s = step { s with
      env := s.env.advance, trace := s.trace ++ [.millis s.env.advance.millis],
      phase := .waitLoop size s.env.advance.millis (s.bitUs.toNat * s.cfg.maxFrameBits / 1000) }

/-- R180 steps 3 to 6, R181, the spec's decision D22: one turn of the wait. It answers 1 if `FB` holds `size + 1`
bytes; else 0 iff strictly more than the limit has passed since it began; else it runs the body of AVAILABLE, drops
its result, and goes on. That a turn is a step is log 10's, the one move at the reading log 6's: the model's choices. -/
def Obligations.WaitTurnOutcomes : Prop :=
  ∀ (s : State) (size : Byte) (t0 : Time) (limit : Nat),
    s.devState ≠ .powerOnReset → s.phase = .waitLoop size t0 limit →
    let read := { s with env := s.env.advance, trace := s.trace ++ [.millis s.env.advance.millis] }
    let late := limit < (s.env.advance.millis - t0).toNat
    (size.toNat + 1 ≤ s.fb.len → step s = .next { s with result := 1, phase := .idle, rspValid := true }) ∧
    (s.fb.len < size.toNat + 1 → late →
      step s = .next { read with result := 0, phase := .idle, rspValid := true }) ∧
    (s.fb.len < size.toNat + 1 → ¬ late →
      ∃ u, exec .available read = .next u ∧
        step s = .next { u with result := s.result, phase := s.phase, rspValid := false })

/-- R182: a wait whose clock runs ends: if every coming move of the environment moves the millisecond clock on,
without a wrap, and there are enough of them to pass the limit, the wait is over after at most one turn more than
there are moves. The premise on the clock is the fairness assumption R182 names; that one move is taken at each
reading is log 6. -/
def Obligations.WaitEndsWhenTheClockRuns : Prop :=
  ∀ (s : State) (size : Byte) (t0 : Time) (limit : Nat),
    s.phase = .waitLoop size t0 limit →
    (∀ m ∈ s.env.moves, 1 ≤ m.addMillis.toNat) →
    (s.env.millis - t0).toNat + (s.env.moves.map fun m => m.addMillis.toNat).sum < 2 ^ 32 →
    limit < (s.env.millis - t0).toNat + s.env.moves.length →
    ∃ k t, k ≤ s.env.moves.length + 1 ∧ Host.Core.run Sys2Proof.core k s = .next t ∧ t.busy = false ∧
      (t.result = 0 ∨ t.result = 1)

/-! ## The transmit path (44_host_transmit.md) -/

/-- R190: WRITE_HEADER on a Node is RoleViolation with no event; on a Host it makes the nine calls of the header,
with the protected identifier `id | calcIDParity(id)`, answers 0, leaves TX high and owned by the serial peripheral and
nothing unsent, and touches no buffer and no detection state. -/
def Obligations.WriteHeaderSendsTheHeader : Prop :=
  (∀ id : Byte, encode (.writeHeader id) = 0x90000000 ||| id.zeroExtend 32) ∧
  ∀ (s : State) (id : Byte), s.devState ≠ .powerOnReset →
    (s.role = .node →
      exec (.writeHeader id) s = .next { s with result := 0xFFFF, phase := .idle, rspValid := true }) ∧
    (s.role = .host → ∃ t, exec (.writeHeader id) s = .next t ∧ t.env.txPending = [] ∧
      t = { s with
        trace := s.trace ++ [.serialTxStop, .gpioWrite .tx .low, .delayUs (13 * s.bitUs.toNat), .gpioWrite .tx .high,
          .delayUs (2 * s.bitUs.toNat), .serialRestart, .serialWrite 0x55, .serialWrite (id ||| calcIdParity id),
          .serialFlush]
        pins := { s.pins with txLevel := .high, txOwner := .serial }
        env := t.env, result := 0, phase := .idle, rspValid := true })

/-- The calls that send a payload (R195 steps 3 to 5): each byte and a delay of two bit periods, then the checksum. -/
def Sys2Proof.Machine.payloadCalls (bitUs : Nat) (data : List Byte) (sum : Byte) : List Event :=
  (data.map fun b => [Event.serialWrite b, Event.delayUs (2 * bitUs)]).flatten ++ [.serialWrite sum, .serialFlush]

/-- R195, for an admitted length, in either role: null fails with no event; else the first `len` bytes of `WDATA` in
index order, each followed by its delay, the classic checksum, the flush; nothing stays unsent, and only the result, the
trace, the unsent bytes and the microsecond clock change: it neither stops nor restarts the peripheral (R308), so the
receive queue is as before. That no move of the environment is taken at these calls is log 6's, and that a delay moves
the microsecond clock alone is log 9's: the model's choices. -/
def Obligations.WriteDataSendsPayloadAndChecksum : Prop :=
  (∀ len : BitVec 4, encode (.writeData .bank len) = 0xA0000000 ||| len.zeroExtend 32 <<< 24 ∧
    encode (.writeData .null len) = 0xA0800000 ||| len.zeroExtend 32 <<< 24) ∧
  ∀ (s : State) (len : BitVec 4), s.devState ≠ .powerOnReset → len.toNat ≤ 8 →
    exec (.writeData .null len) s = .next { s with result := 0xFFFF, phase := .idle, rspValid := true } ∧
    (let data := s.wdata.toList.take len.toNat
     ∃ t, exec (.writeData .bank len) s = .next t ∧
      t = { s with
        trace := s.trace ++ payloadCalls s.bitUs.toNat data (checksum data len.toNat none)
        env := { s.env with txPending := [], micros := t.env.micros }
        result := len.zeroExtend 16, phase := .idle, rspValid := true })

/-! ## The device state machine (46_device_state.md) -/

/-- R230, R232, the spec's decisions D9, D10, D19, D20, D28 and D33: BEGIN in any state, for operands of its domain:
the role, the rate and the bit period; the events in their order; both buffers empty with indices 0 and the stores not
written; the detection state of R40; CS high; Ready; result 0. -/
def Obligations.BeginInitialises : Prop :=
  (∀ baud : BitVec 20, encode (.beginOp baud true) = 0x10400000 ||| baud.zeroExtend 32 ∧
    encode (.beginOp baud false) = 0x10000000 ||| baud.zeroExtend 32) ∧
  ∀ (s : State) (baud : BitVec 20) (isHost : Bool), 1 ≤ baud.toNat → baud.toNat ≤ 1000000 →
    (isHost = true → s.cfg.hasTx = true) →
    ∃ t, exec (.beginOp baud isHost) s = .next t ∧ (s.env.txPending = [] → t.env.txPending = []) ∧
      t = { s with
        role := if isHost then .host else .node
        baud := baud
        bitUs := BitVec.ofNat 32 (1000000 / baud.toNat)
        trace := s.trace ++ ([.pinMode .rx .input, .pinMode .cs .output] ++
          (if s.cfg.hasTx then [.pinMode .tx .output] else []) ++ [.serialBegin baud, .gpioWrite .cs .high])
        pins := { s.pins with modeRx := .input, modeCs := .output,
                              modeTx := if s.cfg.hasTx then .output else s.pins.modeTx,
                              txOwner := .serial, csLevel := .high }
        fb := { s.fb with head := 0, tail := 0, len := 0 }
        sp := { s.sp with head := 0, tail := 0, len := 0 }
        det := { lastLevel := .high, lastActivity := 0, breakStart := 0, breakStartValid := false,
                 breakConfirmed := false, breakCount := 0 }
        devState := .ready
        env := t.env, result := 0, phase := .idle, rspValid := true }

/-- R131, R231, the spec's decisions D9 and D10: a BEGIN with no usable bit period, or as Host without a TX pin, is
refused; it gets no result. -/
def Obligations.BeginOutsideItsDomainIsRefused : Prop :=
  ∀ (s : State) (baud : BitVec 20) (isHost : Bool),
    (baud.toNat = 0 ∨ 1000000 < baud.toNat → exec (.beginOp baud isHost) s = .refused .baudOutOfDomain) ∧
    (1 ≤ baud.toNat → baud.toNat ≤ 1000000 → s.cfg.hasTx = false →
      exec (.beginOp baud true) s = .refused .hostWithoutTx)

/-- R234, R236, the spec's decisions D27 and D43: SLEEP drives CS low and enters Sleep from every state that admits
it; a forced Host first sends the sleep command frame: a header with identifier `0x60`, then zero and `SLEEP_FILL`
with the classic checksum. `WDATA` is neither read nor written, and everything else survives (R270). -/
def Obligations.SleepSendsTheSleepFrameOnAForcedHost : Prop :=
  encode (.sleep true) = 0x20400000 ∧ encode (.sleep false) = 0x20000000 ∧
  ∀ (s : State) (force : Bool), s.devState ≠ .powerOnReset →
    ((force = false ∨ s.role = .node) → exec (.sleep force) s = .next { s with
      trace := s.trace ++ [.gpioWrite .cs .low], pins := { s.pins with csLevel := .low }, devState := .sleep,
      result := 0, phase := .idle, rspValid := true }) ∧
    (force = true → s.role = .host →
      let data := 0 :: s.cfg.sleepFill.toList
      ∃ t, exec (.sleep force) s = .next t ∧ t.env.txPending = [] ∧
      t = { s with
        trace := s.trace ++ ([.serialTxStop, .gpioWrite .tx .low, .delayUs (13 * s.bitUs.toNat), .gpioWrite .tx .high,
          .delayUs (2 * s.bitUs.toNat), .serialRestart, .serialWrite 0x55, .serialWrite 0x60, .serialFlush] ++
          payloadCalls s.bitUs.toNat data (checksum data 8 none) ++ [.gpioWrite .cs .low])
        pins := { s.pins with csLevel := .low, txLevel := .high, txOwner := .serial }
        devState := .sleep, env := t.env, result := 0, phase := .idle, rspValid := true })

/-- R238: WAKE drives CS high and enters Ready; a Node with a TX line then sends the byte `0x80` and waits until
it is sent. Buffers and detection state are not touched. That no move of the environment is taken at `SerialWrite` and
`SerialFlush` is log 6's, and that they move no clock is log 9's: the model's choices (R77 says that time passes). -/
def Obligations.WakeEnablesTheTransceiver : Prop :=
  encode .wake = 0x30000000 ∧
  ∀ s : State, s.devState ≠ .powerOnReset →
    (s.role = .host ∨ s.cfg.hasTx = false → exec .wake s = .next { s with
      trace := s.trace ++ [.gpioWrite .cs .high], pins := { s.pins with csLevel := .high }, devState := .ready,
      result := 0, phase := .idle, rspValid := true }) ∧
    (s.role = .node → s.cfg.hasTx = true → exec .wake s = .next { s with
      trace := s.trace ++ [.gpioWrite .cs .high, .serialWrite 0x80, .serialFlush],
      pins := { s.pins with csLevel := .high }, env := { s.env with txPending := [] }, devState := .ready,
      result := 0, phase := .idle, rspValid := true })

/-- R242, the spec's decision D35: LIN_VERSION writes the register if a value is given and answers the register; any
byte is accepted; it is admitted in PowerOnReset. -/
def Obligations.LinVersionReadsAndWrites : Prop :=
  (∀ v : Byte, encode (.linVersion (some v)) = 0xE0400000 ||| v.zeroExtend 32) ∧
  encode (.linVersion none) = 0xE0000000 ∧
  ∀ (s : State) (v : Byte),
    exec (.linVersion (some v)) s =
      .next { s with linVersion := v, result := v.zeroExtend 16, phase := .idle, rspValid := true } ∧
    exec (.linVersion none) s =
      .next { s with result := s.linVersion.zeroExtend 16, phase := .idle, rspValid := true }

/-- R240: the state diagram, complete: BEGIN and WAKE lead to Ready with CS high, SLEEP to Sleep with CS low, every
other operation leaves the device state and CS alone; SLEEP and WAKE are refused in PowerOnReset. So TxOff and
Operational are never entered. -/
def Obligations.DeviceStateDiagram : Prop :=
  (∀ (s : State) (force : Bool), s.devState = .powerOnReset →
    exec (.sleep force) s = .refused .beforeBegin ∧ exec .wake s = .refused .beforeBegin) ∧
  ∀ (i : Instr) (s t : State), exec i s = .next t →
    ((∃ baud isHost, i = .beginOp baud isHost) ∨ i = .wake → t.devState = .ready ∧ t.pins.csLevel = .high) ∧
    ((∃ force, i = .sleep force) → t.devState = .sleep ∧ t.pins.csLevel = .low) ∧
    ((∀ baud isHost, i ≠ .beginOp baud isHost) → i ≠ .wake → (∀ force, i ≠ .sleep force) →
      t.devState = s.devState ∧ t.pins.csLevel = s.pins.csLevel) ∧
    (t.devState = .txOff ∨ t.devState = .operational → t.devState = s.devState)

/-- The operations R262 admits in PowerOnReset. -/
def Sys2Proof.Machine.admittedAtReset : Instr → Prop
  | .beginOp _ _ => True
  | .sleep _ => False
  | .wake => False
  | .available => False
  | .dataAvailable => False
  | .waitForData _ => False
  | .readId => False
  | .readData _ _ => False
  | .writeHeader _ => False
  | .writeData _ _ => False
  | .calcChecksum _ _ _ => True
  | .calcIdParity _ => True
  | .dataLengthCode _ => True
  | .linVersion _ => True

/-- R262, the spec's decision D29: in PowerOnReset exactly BEGIN, LIN_VERSION and the three pure functions are
admitted; any other operation is refused and gets no result. -/
def Obligations.OnlyFiveOperationsRunBeforeBegin : Prop :=
  ∀ (i : Instr) (s : State), i.wellFormed = true → s.devState = .powerOnReset →
    (exec i s = .refused .beforeBegin ↔ ¬ admittedAtReset i)

/-! ## The checksum and parity engine (45_checksum_parity.md) -/

/-- R213 laws 1, 2 and 5, derived by the spec from R212: folding once at the end gives the sum, which is congruent to
the true total modulo 255, is 0 only if everything summed is 0, and stays below 256. -/
def Obligations.ChecksumFoldsOnce : Prop :=
  ∀ (data : List Byte) (seed : Option Byte),
    let total := (seed.map BitVec.toNat).getD 0 + (data.map BitVec.toNat).sum
    checksumSum data seed = (if total = 0 then 0 else (total - 1) % 255 + 1) ∧ checksumSum data seed ≤ 255

/-- R213 law 3, derived by the spec from R212: the order of the bytes does not change the checksum. -/
def Obligations.ChecksumIgnoresOrder : Prop :=
  ∀ (data data' : List Byte) (seed : Option Byte), data.Perm data' → data.length ≤ 8 →
    checksum data data.length seed = checksum data' data'.length seed

/-- R213 law 4, derived by the spec from R212: a receiver that sums the data and the checksum byte finds `0xFF`. -/
def Obligations.ChecksumReceiverFindsAllOnes : Prop :=
  ∀ (data : List Byte) (seed : Option Byte), data.length ≤ 8 →
    checksumSum (data ++ [checksum data data.length seed]) seed = 0xFF

/-- R215: the source's two known vectors. -/
def Obligations.SourceChecksumVectors : Prop :=
  checksumSum [0x01, 0x02, 0x03] none = 6 ∧ checksum [0x01, 0x02, 0x03] 3 none = 0xF9 ∧
  checksumSum [0x02] (some 0x01) = 3 ∧ checksum [0x02] 1 (some 0x01) = 0xFC

/-- R214, the spec's decision D31: CALC_CHECKSUM: null is InvalidArgument; else the complement of the end-around-carry
sum of the seed, if any, and the first `len`, at most 8, bytes of `WDATA`; it writes only the result and runs before
BEGIN too. -/
def Obligations.CalcChecksumResult : Prop :=
  (∀ (len : BitVec 4) (seed : Byte),
    encode (.calcChecksum .bank len (some seed)) = 0xB0400000 ||| len.zeroExtend 32 <<< 24 ||| seed.zeroExtend 32 ∧
    encode (.calcChecksum .null len none) = 0xB0800000 ||| len.zeroExtend 32 <<< 24) ∧
  ∀ (s : State) (len : BitVec 4) (seed : Option Byte),
    exec (.calcChecksum .null len seed) s =
      .next { s with result := 0xFFFF, phase := .idle, rspValid := true } ∧
    exec (.calcChecksum .bank len seed) s = .next { s with
      result := (~~~ BitVec.ofNat 8 (checksumSum (s.wdata.toList.take (min len.toNat 8)) seed)).zeroExtend 16
      phase := .idle, rspValid := true }

/-- R210: CALC_ID_PARITY: `p0` in bit 6 and `p1` in bit 7 by the two formulas over bits 0 to 5, every other bit 0; it
writes only the result and runs before BEGIN too. -/
def Obligations.CalcIdParityResult : Prop :=
  (∀ id : Byte, encode (.calcIdParity id) = 0xC0000000 ||| id.zeroExtend 32) ∧
  ∀ (s : State) (id : Byte), ∃ p : Byte,
    p.getLsbD 6 = (id.getLsbD 0 ^^ id.getLsbD 1 ^^ id.getLsbD 2 ^^ id.getLsbD 4) ∧
    p.getLsbD 7 = !(id.getLsbD 1 ^^ id.getLsbD 3 ^^ id.getLsbD 4 ^^ id.getLsbD 5) ∧
    p &&& 0x3F = 0 ∧
    exec (.calcIdParity id) s =
      .next { s with result := p.zeroExtend 16, phase := .idle, rspValid := true }

/-- R218: DATA_LENGTH_CODE: bits 5:4 of the identifier give 2, 2, 4, 8; it writes only the result. -/
def Obligations.DataLengthCodeResult : Prop :=
  (∀ pid : Byte, encode (.dataLengthCode pid) = 0xD0000000 ||| pid.zeroExtend 32) ∧
  ∀ (s : State) (pid : Byte),
    exec (.dataLengthCode pid) s = .next { s with
      result := if pid.extractLsb' 4 2 = 3 then 8 else if pid.extractLsb' 4 2 = 2 then 4 else 2
      phase := .idle, rspValid := true }

/-! ## Bit timing (40_bit_timing.md) -/

/-- R130, R131, the spec's decision D10: for every rate of the domain the bit period is the quotient, exactly, and it
is at least 1. -/
def Obligations.BitPeriodIsTheQuotient : Prop :=
  ∀ baud : BitVec 20, 1 ≤ baud.toNat → baud.toNat ≤ 1000000 →
    (bitPeriod baud).toNat = 1000000 / baud.toNat ∧ 1 ≤ (bitPeriod baud).toNat ∧
    (bitPeriod baud).toNat * baud.toNat ≤ 1000000 ∧ 1000000 < ((bitPeriod baud).toNat + 1) * baud.toNat

/-- R134, the spec's decision D13: a time difference is right across the wrap, as long as less than `2^32` units
passed. -/
def Obligations.ElapsedTimeAcrossTheWrap : Prop :=
  ∀ (t0 : Time) (d : Nat), d < 2 ^ 32 → elapsed t0 (t0 + BitVec.ofNat 32 d) = d

/-! ## Whole-machine rules -/

/-- R231, R262 and R97 (the spec's decisions D9, D10, D29, D24) name all refusals: after BEGIN every well-formed
operation completes, but for a BEGIN outside its domain. -/
def Obligations.EveryOperationCompletesAfterBegin : Prop :=
  ∀ (i : Instr) (s : State), i.wellFormed = true → s.devState ≠ .powerOnReset →
    (∀ baud isHost, i = .beginOp baud isHost →
      1 ≤ baud.toNat ∧ baud.toNat ≤ 1000000 ∧ (isHost = true → s.cfg.hasTx = true)) →
    ∃ t, exec i s = .next t

/-- R21, R24, R25, R26, R34, R35, R37 and the configuration of R7 to R11: who writes what. The configuration and
`WDATA` are written by no operation; the role, the rate and the bit period only by BEGIN; `lin_version` only by
LIN_VERSION; `RDATA` and `scratch` only by READ_DATA; the pin modes only by BEGIN. -/
def Obligations.EveryRegisterHasItsWriters : Prop :=
  ∀ (i : Instr) (s t : State), exec i s = .next t →
    t.cfg = s.cfg ∧ t.wdata = s.wdata ∧ t.cmds = s.cmds ∧
    ((∀ baud isHost, i ≠ .beginOp baud isHost) → t.role = s.role ∧ t.baud = s.baud ∧ t.bitUs = s.bitUs ∧
      t.pins.modeRx = s.pins.modeRx ∧ t.pins.modeTx = s.pins.modeTx ∧ t.pins.modeCs = s.pins.modeCs) ∧
    ((∀ w, i ≠ .linVersion w) → t.linVersion = s.linVersion) ∧
    ((∀ buf len, i ≠ .readData buf len) → t.rdata = s.rdata ∧ t.scratch = s.scratch)

/-- C11, R29 to R33, R27, R28: the detection state is written only by BEGIN and the polls, but for the break counter,
which READ_ID also writes; `FB` and `SP` change only in BEGIN, a Node's polls, READ_ID and (`FB`) READ_DATA. -/
def Obligations.DetectionStateAndBuffersHaveTheirWriters : Prop :=
  ∀ (i : Instr) (s t : State), exec i s = .next t →
    (∀ baud isHost, i ≠ .beginOp baud isHost) → ¬ (s.role = .node ∧ (i = .available ∨ ∃ size, i = .waitForData size)) →
    t.det = { s.det with breakCount := t.det.breakCount } ∧
    (i ≠ .readId → t.det.breakCount = s.det.breakCount ∧ t.sp = s.sp ∧
      ((∀ buf len, i ≠ .readData buf len) → t.fb = s.fb))

/-- Which operation makes which call: the table of R266. -/
def Sys2Proof.Machine.mayCall (i : Instr) (s : State) : Event → Prop
  | .serialCount _ => i = .available ∨ ∃ size, i = .waitForData size
  | .serialRead _ => s.role = .node ∧ (i = .available ∨ ∃ size, i = .waitForData size)
  | .serialWrite _ => (∃ id, i = .writeHeader id) ∨ (∃ buf len, i = .writeData buf len) ∨
      (i = .sleep true ∧ s.role = .host) ∨ (i = .wake ∧ s.role = .node ∧ s.cfg.hasTx = true)
  | .serialFlush => (∃ id, i = .writeHeader id) ∨ (∃ buf len, i = .writeData buf len) ∨
      (i = .sleep true ∧ s.role = .host) ∨ (i = .wake ∧ s.role = .node ∧ s.cfg.hasTx = true)
  | .serialBegin _ => ∃ baud isHost, i = .beginOp baud isHost
  | .serialTxStop => (∃ id, i = .writeHeader id) ∨ (i = .sleep true ∧ s.role = .host)
  | .serialRestart => (∃ id, i = .writeHeader id) ∨ (i = .sleep true ∧ s.role = .host)
  | .pinMode _ _ => ∃ baud isHost, i = .beginOp baud isHost
  | .gpioRead p _ => p = .rx ∧ s.role = .node ∧ (i = .available ∨ ∃ size, i = .waitForData size)
  | .gpioWrite .tx _ => (∃ id, i = .writeHeader id) ∨ (i = .sleep true ∧ s.role = .host)
  | .gpioWrite .cs _ => (∃ baud isHost, i = .beginOp baud isHost) ∨ (∃ force, i = .sleep force) ∨ i = .wake
  | .gpioWrite .rx _ => False
  | .micros _ => s.role = .node ∧ (i = .available ∨ ∃ size, i = .waitForData size)
  | .millis _ => ∃ size, i = .waitForData size
  | .delayUs _ => (∃ id, i = .writeHeader id) ∨ (∃ buf len, i = .writeData buf len) ∨ (i = .sleep true ∧ s.role = .host)

/-- R266: which operation makes which call, a wait in progress included; the output trace only grows (R15). -/
def Obligations.CallsFollowTheCollaboratorTable : Prop :=
  (∀ (i : Instr) (s t : State), exec i s = .next t →
    ∃ calls, t.trace = s.trace ++ calls ∧ ∀ e ∈ calls, mayCall i s e) ∧
  ∀ (s t : State) (size : Byte) (t0 : Time) (limit : Nat), s.phase = .waitLoop size t0 limit → step s = .next t →
    ∃ calls, t.trace = s.trace ++ calls ∧ ∀ e ∈ calls, mayCall (.waitForData size) s e

/-- The answer with its next state changed. -/
def Sys2Proof.Machine.mapNext (f : State → State) : Out → Out
  | .next t => .next (f t)
  | .fault r => .fault r
  | .refused r => .refused r

/-- R2: `linVersion` is informational only: no other operation reads it, so another value changes nothing but itself. -/
def Obligations.LinVersionHasNoEffect : Prop :=
  ∀ (i : Instr) (s : State) (v : Byte), (∀ w, i ≠ .linVersion w) →
    exec i { s with linVersion := v } = mapNext (fun t => { t with linVersion := v }) (exec i s)

/-- R309, derived by the spec from R143 and R146: in the Host role `FB` stays empty after BEGIN: every step keeps
that, and so DATA_AVAILABLE answers 0, READ_ID NotReady and READ_DATA NotEnoughData. -/
def Obligations.HostNeverFillsTheFrameBuffer : Prop :=
  (∀ s t : State, (s.devState ≠ .powerOnReset → s.role = .host → s.fb.len = 0) → step s = .next t →
    (t.devState ≠ .powerOnReset → t.role = .host → t.fb.len = 0)) ∧
  ∀ (s : State) (len : BitVec 4), s.devState ≠ .powerOnReset → s.fb.len = 0 → len.toNat ≤ 8 →
    exec .dataAvailable s = .next { s with result := 0, phase := .idle, rspValid := true } ∧
    exec .readId s = .next { s with result := 0xFFFF, phase := .idle, rspValid := true } ∧
    exec (.readData .bank len) s = .next { s with result := 0xFFFE, phase := .idle, rspValid := true }

/-! ## Invariants -/

/-- R39, R40, R290, the spec's decision D36: reset leaves PowerOnReset, `busy = 0` and the three pin modes UNSET, for every
configuration; each field R40 leaves unspecified, every byte of the two stores among them, is the entry of a draw that
may be any (U6, U10; the draw is log 3's and log 4's, the model's choice). `State.reset` is this for the sample instance
and a draw without a body (log 2, log 3). -/
def Obligations.ResetLeavesPowerOnReset : Prop :=
  (∀ (c : Config) (d : ResetDraw),
    let s := State.resetWith c d
    s.devState = .powerOnReset ∧ s.busy = false ∧ s.cfg = c ∧
    s.role = d.role ∧ s.baud = d.baud ∧ s.bitUs = d.bitUs ∧ s.linVersion = d.linVersion ∧
    s.fb.head = d.fbHead ∧ s.fb.tail = d.fbTail ∧ s.fb.len = d.fbLen ∧
    (∀ i (h : i < 256), i < c.nFb → s.fb.mem.read i = d.fbStore[i]) ∧
    s.sp.head = d.spHead ∧ s.sp.tail = d.spTail ∧ s.sp.len = d.spLen ∧
    (∀ i (h : i < 8), s.sp.mem.read i = d.spStore[i]) ∧
    s.det = { lastLevel := d.lastLevel, lastActivity := d.lastActivity, breakStart := d.breakStart,
              breakStartValid := d.breakStartValid, breakConfirmed := d.breakConfirmed, breakCount := d.breakCount } ∧
    s.scratch = d.scratch ∧ s.wdata = d.wdata ∧ s.rdata = d.rdata ∧ s.result = d.result ∧
    s.pins = { csLevel := d.csLevel, txLevel := d.txLevel, modeRx := .unset, modeTx := .unset, modeCs := .unset,
               txOwner := d.txOwner }) ∧
  State.reset = State.resetWith Config.sample Config.resetDraw

/-- R60, R254, R37, R40, R240: the invariant holds at reset, whatever the open parameters and the unspecified fields
are. -/
def Obligations.ResetMeetsTheInvariant : Prop :=
  (∀ (c : Config) (d : ResetDraw), c.Ok → (State.resetWith c d).Inv) ∧ State.reset.Inv

/-- R254, derived by the spec: no operation and no error leaves the engine in an inconsistent state: every step keeps
the invariant (buffers as R60 says, stores canonical, a legal device state, the bit period of the rate, the pins of
R40 and R240, nothing unsent between operations (R307)). -/
def Obligations.StepKeepsTheInvariant : Prop :=
  ∀ s t : State, s.Inv → step s = .next t → t.Inv

/-- The last event of the trace that says something, if any. -/
def Sys2Proof.Machine.lastOf {α : Type} (f : Event → Option α) (trace : List Event) : Option α :=
  trace.reverse.findSome? f

/-- R37, the spec's decisions D34 and D36: the pins are what the trace says: `cs_level` and `tx_level` the levels of
the last `GpioWrite`, `pin_mode[p]` the mode of the last `PinMode` (UNSET without one), `tx_owner` the side of the
last stop, restart or begin. -/
structure Sys2Proof.Machine.State.PinsShadowTrace (s : State) : Prop where
  cs : ∀ l, lastOf (fun | .gpioWrite .cs l => some l | _ => none) s.trace = some l → s.pins.csLevel = l
  tx : ∀ l, lastOf (fun | .gpioWrite .tx l => some l | _ => none) s.trace = some l → s.pins.txLevel = l
  modeRx : s.pins.modeRx = (lastOf (fun | .pinMode .rx m => some m | _ => none) s.trace).getD .unset
  modeTx : s.pins.modeTx = (lastOf (fun | .pinMode .tx m => some m | _ => none) s.trace).getD .unset
  modeCs : s.pins.modeCs = (lastOf (fun | .pinMode .cs m => some m | _ => none) s.trace).getD .unset
  owner : ∀ o, lastOf (fun
    | .serialTxStop => some TxOwner.gpio
    | .serialRestart => some TxOwner.serial
    | .serialBegin _ => some TxOwner.serial
    | _ => none) s.trace = some o → s.pins.txOwner = o

/-- R37, the spec's decisions D34 and D36: the pin fields are shadows of the output trace, at reset and after every
step. -/
def Obligations.PinsShadowTheTrace : Prop :=
  (∀ c d, (State.resetWith c d).PinsShadowTrace) ∧
  ∀ s t : State, s.PinsShadowTrace → step s = .next t → t.PinsShadowTrace

/-! ## The environment (10_state.md R50 to R53) -/

/-- U7, R307: what an operation that stops, restarts or starts the serial peripheral does to the environment. WRITE_HEADER
and the forced SLEEP of a Host stop it and restart it once each, BEGIN starts it once; at each of these calls the
environment makes one move, which alone decides the bytes queued to be received (log 6, log 8: the model's choices), and
nothing else touches them, the RX level, the millisecond clock or the coming moves; a delay moves only the microsecond
clock (log 9). -/
def Obligations.PeripheralCallsTakeOneMoveEach : Prop :=
  ∀ s t : State,
    (∀ id, s.role = .host → exec (.writeHeader id) s = .next t →
      t.env = { s.env.peripheral.peripheral with txPending := [], micros := t.env.micros }) ∧
    (s.role = .host → exec (.sleep true) s = .next t →
      t.env = { s.env.peripheral.peripheral with txPending := [], micros := t.env.micros }) ∧
    (∀ baud isHost, exec (.beginOp baud isHost) s = .next t → t.env = s.env.peripheral)
end

