-- ==== Sys2Proof/Laws/Encoding.lean ====
section
/-! SUPPORT. The fields of a command word (30_encoding.md R91): each field of an assembled word, and a word assembled from its own fields. -/

namespace Sys2Proof

@[simp] theorem fieldOp_cmdWord (op len : BitVec 4) (nul flg : BitVec 1) (arg : BitVec 20) :
    fieldOp (cmdWord op len nul flg arg) = op := by
  apply BitVec.eq_of_getLsbD_eq; intro i hi
  simp only [fieldOp, cmdWord, BitVec.getLsbD_extractLsb', BitVec.getLsbD_append, hi, decide_true, Bool.true_and]
  interval_cases i <;> simp

@[simp] theorem fieldLen_cmdWord (op len : BitVec 4) (nul flg : BitVec 1) (arg : BitVec 20) :
    fieldLen (cmdWord op len nul flg arg) = len := by
  apply BitVec.eq_of_getLsbD_eq; intro i hi
  simp only [fieldLen, cmdWord, BitVec.getLsbD_extractLsb', BitVec.getLsbD_append, hi, decide_true, Bool.true_and]
  interval_cases i <;> simp

@[simp] theorem fieldNul_cmdWord (op len : BitVec 4) (nul flg : BitVec 1) (arg : BitVec 20) :
    fieldNul (cmdWord op len nul flg arg) = nul := by
  apply BitVec.eq_of_getLsbD_eq; intro i hi
  simp only [fieldNul, cmdWord, BitVec.getLsbD_extractLsb', BitVec.getLsbD_append, hi, decide_true, Bool.true_and]
  obtain rfl : i = 0 := by omega
  simp

@[simp] theorem fieldFlg_cmdWord (op len : BitVec 4) (nul flg : BitVec 1) (arg : BitVec 20) :
    fieldFlg (cmdWord op len nul flg arg) = flg := by
  apply BitVec.eq_of_getLsbD_eq; intro i hi
  simp only [fieldFlg, cmdWord, BitVec.getLsbD_extractLsb', BitVec.getLsbD_append, hi, decide_true, Bool.true_and]
  obtain rfl : i = 0 := by omega
  simp

@[simp] theorem fieldRsv_cmdWord (op len : BitVec 4) (nul flg : BitVec 1) (arg : BitVec 20) :
    fieldRsv (cmdWord op len nul flg arg) = 0 := by
  apply BitVec.eq_of_getLsbD_eq; intro i hi
  simp only [fieldRsv, cmdWord, BitVec.getLsbD_extractLsb', BitVec.getLsbD_append, hi, decide_true, Bool.true_and]
  interval_cases i <;> simp

@[simp] theorem fieldArg_cmdWord (op len : BitVec 4) (nul flg : BitVec 1) (arg : BitVec 20) :
    fieldArg (cmdWord op len nul flg arg) = arg := by
  apply BitVec.eq_of_getLsbD_eq; intro i hi
  simp only [fieldArg, cmdWord, BitVec.getLsbD_extractLsb', BitVec.getLsbD_append, hi, decide_true, Bool.true_and]
  simp [hi]

/-- A word with `RSV` zero is assembled from its own fields. -/
theorem cmdWord_fields (w : Word) (h : fieldRsv w = 0) :
    cmdWord (fieldOp w) (fieldLen w) (fieldNul w) (fieldFlg w) (fieldArg w) = w := by
  have h0 : w.getLsbD 20 = false := by
    have := congrArg (BitVec.getLsbD · 0) h
    simpa [fieldRsv] using this
  have h1 : w.getLsbD 21 = false := by
    have := congrArg (BitVec.getLsbD · 1) h
    simpa [fieldRsv] using this
  apply BitVec.eq_of_getLsbD_eq; intro i hi
  simp only [cmdWord, fieldOp, fieldLen, fieldNul, fieldFlg, fieldArg, BitVec.getLsbD_extractLsb', BitVec.getLsbD_append]
  interval_cases i <;> first | exact h0.symm | exact h1.symm | simp

@[simp] theorem argHigh_argOfByte (b : Byte) : argHigh (argOfByte b) = 0 := by
  apply BitVec.eq_of_getLsbD_eq; intro i hi
  simp only [argHigh, argOfByte, BitVec.getLsbD_extractLsb', BitVec.getLsbD_append, hi, decide_true, Bool.true_and]
  simp

@[simp] theorem argByte_argOfByte (b : Byte) : argByte (argOfByte b) = b := by
  apply BitVec.eq_of_getLsbD_eq; intro i hi
  simp only [argByte, argOfByte, BitVec.getLsbD_extractLsb', BitVec.getLsbD_append, hi, decide_true, Bool.true_and]
  simp [hi]

/-- An `ARG` whose high part is zero is its byte. -/
theorem argOfByte_argByte (a : BitVec 20) (h : argHigh a = 0) : argOfByte (argByte a) = a := by
  apply BitVec.eq_of_getLsbD_eq; intro i hi
  simp only [argOfByte, argByte, BitVec.getLsbD_extractLsb', BitVec.getLsbD_append]
  by_cases hi8 : i < 8
  · simp [hi8]
  · have := congrArg (BitVec.getLsbD · (i - 8)) h
    simp only [argHigh, BitVec.getLsbD_extractLsb'] at this
    have h12 : i - 8 < 12 := by omega
    have e : 8 + (i - 8) = i := by omega
    simp only [h12, e, decide_true, Bool.true_and] at this
    simp [hi8, this]

@[simp] theorem nulOfBuf_bufOfNul (n : BitVec 1) : nulOfBuf (bufOfNul n) = n := by
  revert n; decide

@[simp] theorem bufOfNul_nulOfBuf (b : Buf) : bufOfNul (nulOfBuf b) = b := by
  cases b <;> rfl

/-- A word laid out as `mask` of R93 is, field by field; `RSV` is masked by `r`. -/
def maskWord (o l : BitVec 4) (n f : BitVec 1) (r : BitVec 2) (a : BitVec 20) : Word := o ++ l ++ n ++ f ++ r ++ a

/-- Masking an assembled word masks its fields. -/
theorem cmdWord_and (op len : BitVec 4) (nul flg : BitVec 1) (arg : BitVec 20) (o l : BitVec 4) (n f : BitVec 1)
    (r : BitVec 2) (a : BitVec 20) : cmdWord op len nul flg arg &&& maskWord o l n f r a =
      cmdWord (op &&& o) (len &&& l) (nul &&& n) (flg &&& f) (arg &&& a) := by
  apply BitVec.eq_of_getLsbD_eq; intro i hi
  simp only [cmdWord, maskWord, BitVec.getLsbD_and, BitVec.getLsbD_append]
  repeat' split
  all_goals simp

end Sys2Proof
end

