-- ==== Sys2Proof/Laws/Memory.lean ====
section
/-! SUPPORT. The laws of a store: a read after a write, and that every memory operation keeps the canonical form. -/

namespace Sys2Proof.Machine

/-- The addresses of a store rise strictly. -/
abbrev Memory.Sorted (m : Memory) : Prop := m.Pairwise fun a b => a.1 < b.1

theorem Memory.wf_iff (m : Memory) : m.wf = true ↔ m.Sorted ∧ ∀ c ∈ m, c.2 ≠ Memory.unlisted := by
  simp [Memory.wf, Memory.Sorted]

theorem Memory.mem_cons {i : Nat} {v : Byte} {m : Memory} {c : Host.Cell} (h : c ∈ Memory.cons i v m) :
    c = (i, v) ∧ v ≠ Memory.unlisted ∨ c ∈ m := by
  unfold Memory.cons at h
  split at h
  · exact .inr h
  · rcases List.mem_cons.1 h with rfl | h
    · exact .inl ⟨rfl, ‹_›⟩
    · exact .inr h

/-- An entry of a written store is the written one or was there before. -/
theorem Memory.mem_write {m : Memory} {i : Nat} {v : Byte} {c : Host.Cell} (h : c ∈ m.write i v) :
    c = (i, v) ∧ v ≠ Memory.unlisted ∨ c ∈ m := by
  induction m with
  | nil => exact Memory.mem_cons h
  | cons p m ih =>
    obtain ⟨a, b⟩ := p
    simp only [Memory.write] at h
    split at h
    · exact Memory.mem_cons h
    · split at h
      · rcases Memory.mem_cons h with h | h
        · exact .inl h
        · exact .inr (List.mem_cons_of_mem _ h)
      · rcases List.mem_cons.1 h with rfl | h
        · exact .inr List.mem_cons_self
        · rcases ih h with h | h
          · exact .inl h
          · exact .inr (List.mem_cons_of_mem _ h)

theorem Memory.cons_sorted {m : Memory} {i : Nat} {v : Byte} (h : m.Sorted) (hi : ∀ c ∈ m, i < c.1) :
    (Memory.cons i v m).Sorted := by
  unfold Memory.cons
  split
  · exact h
  · exact List.pairwise_cons.2 ⟨hi, h⟩

theorem Memory.write_sorted {m : Memory} (i : Nat) (v : Byte) (h : m.Sorted) : (m.write i v).Sorted := by
  induction m with
  | nil => exact Memory.cons_sorted h (by simp)
  | cons p m ih =>
    obtain ⟨a, b⟩ := p
    obtain ⟨ha, hm⟩ := List.pairwise_cons.1 h
    simp only [Memory.write]
    split
    · rename_i hlt
      refine Memory.cons_sorted h fun c hc => ?_
      rcases List.mem_cons.1 hc with rfl | hc
      · exact hlt
      · exact Nat.lt_trans hlt (ha c hc)
    · split
      · rename_i _ heq
        exact Memory.cons_sorted hm fun c hc => heq ▸ ha c hc
      · rename_i hge hne
        refine List.pairwise_cons.2 ⟨fun c hc => ?_, ih hm⟩
        rcases Memory.mem_write hc with ⟨rfl, _⟩ | hc
        · simp only; omega
        · exact ha c hc

/-- A write keeps the canonical form. -/
theorem Memory.write_wf {m : Memory} (i : Nat) (v : Byte) (h : m.wf = true) : (m.write i v).wf = true := by
  rw [Memory.wf_iff] at *
  refine ⟨Memory.write_sorted i v h.1, fun c hc => ?_⟩
  rcases Memory.mem_write hc with ⟨rfl, hv⟩ | hc
  · exact hv
  · exact h.2 c hc

/-- An address below every listed one reads as unlisted. -/
theorem Memory.read_of_lt {m : Memory} {i : Nat} (h : ∀ c ∈ m, i < c.1) : m.read i = Memory.unlisted := by
  induction m with
  | nil => rfl
  | cons p m ih =>
    obtain ⟨a, b⟩ := p
    have ha : i < a := h _ List.mem_cons_self
    simp only [Memory.read, if_neg (Nat.ne_of_gt ha)]
    exact ih fun c hc => h c (List.mem_cons_of_mem _ hc)

theorem Memory.read_cons {m : Memory} (i : Nat) (v : Byte) (j : Nat) (h : ∀ c ∈ m, i < c.1) :
    (Memory.cons i v m).read j = if j = i then v else m.read j := by
  unfold Memory.cons
  split
  · rename_i hv
    split
    · rename_i hj
      rw [hj, Memory.read_of_lt h, hv]
    · rfl
  · simp only [Memory.read, eq_comm]

/-- A read after a write: the written byte at its address, every other address as before. -/
theorem Memory.read_write {m : Memory} (h : m.Sorted) (i : Nat) (v : Byte) (j : Nat) :
    (m.write i v).read j = if j = i then v else m.read j := by
  induction m with
  | nil => exact Memory.read_cons i v j (by simp)
  | cons p m ih =>
    obtain ⟨a, b⟩ := p
    obtain ⟨ha, hm⟩ := List.pairwise_cons.1 h
    simp only [Memory.write]
    split
    · rename_i hlt
      refine Memory.read_cons i v j fun c hc => ?_
      rcases List.mem_cons.1 hc with rfl | hc
      · exact hlt
      · exact Nat.lt_trans hlt (ha c hc)
    · split
      · rename_i _ heq
        subst heq
        rw [Memory.read_cons i v j ha]
        by_cases hj : j = i
        · simp [hj]
        · simp [hj, Memory.read, Ne.symm hj]
      · rename_i hge hne
        simp only [Memory.read, ih hm]
        by_cases hj : a = j
        · subst hj; simp [Ne.symm hne]
        · simp [hj]

/-- A write adds no address but its own. -/
theorem Memory.write_addr {m : Memory} {n : Nat} (i : Nat) (v : Byte) (hi : i < n) (h : ∀ c ∈ m, c.1 < n) :
    ∀ c ∈ m.write i v, c.1 < n := by
  intro c hc
  rcases Memory.mem_write hc with ⟨rfl, _⟩ | hc
  · exact hi
  · exact h c hc

/-! ### A store filled with given bytes -/

/-- An entry of a filled store is one of its bytes, at that byte's place. -/
theorem Memory.mem_ofBytes {l : List Byte} {i : Nat} {c : Host.Cell} (h : c ∈ Memory.ofBytes i l) :
    i ≤ c.1 ∧ c.1 < i + l.length ∧ c.2 ≠ Memory.unlisted := by
  induction l generalizing i with
  | nil => simp [Memory.ofBytes] at h
  | cons b l ih =>
    rw [List.length_cons]
    rcases Memory.mem_cons h with ⟨rfl, hv⟩ | h
    · exact ⟨Nat.le_refl i, by simp only; omega, hv⟩
    · obtain ⟨h1, h2, h3⟩ := ih h
      exact ⟨by omega, by omega, h3⟩

theorem Memory.ofBytes_sorted (i : Nat) (l : List Byte) : (Memory.ofBytes i l).Sorted := by
  induction l generalizing i with
  | nil => exact List.Pairwise.nil
  | cons b l ih => exact Memory.cons_sorted (ih (i + 1)) fun c hc => (Memory.mem_ofBytes hc).1

/-- A filled store has the canonical form. -/
theorem Memory.ofBytes_wf (i : Nat) (l : List Byte) : (Memory.ofBytes i l).wf = true :=
  (Memory.wf_iff _).2 ⟨Memory.ofBytes_sorted i l, fun _ hc => (Memory.mem_ofBytes hc).2.2⟩

/-- A filled store reads as the bytes it was filled with. -/
theorem Memory.read_ofBytes (i j : Nat) (l : List Byte) (h : j < l.length) : (Memory.ofBytes i l).read (i + j) = l[j] := by
  induction l generalizing i j with
  | nil => simp at h
  | cons b l ih =>
    rw [Memory.ofBytes, Memory.read_cons i b (i + j) fun c hc => (Memory.mem_ofBytes hc).1]
    cases j with
    | zero => simp
    | succ j =>
      rw [if_neg (by omega), ← Nat.add_assoc, Nat.add_right_comm, ih]
      · simp
      · simpa using h

end Sys2Proof.Machine
end

