-- ==== Sys2Proof/Laws/Ring.lean ====
section
/-! SUPPORT. The laws of a ring buffer (20_memory.md R60 to R67): what each primitive does to the content, and that each keeps the invariant. -/

namespace Sys2Proof.Machine

/-- The invariant of R60 as propositions. -/
theorem Ring.wf_iff (n : Nat) (b : Ring) : b.wf n = true ↔
    b.head < n ∧ b.tail < n ∧ b.len ≤ n ∧ b.tail = (b.head + b.len) % n ∧ b.mem.wf = true ∧ ∀ c ∈ b.mem, c.1 < n := by
  simp [Ring.wf, and_assoc]

@[simp] theorem Ring.content_length (n : Nat) (b : Ring) : (b.content n).length = b.len := by
  simp [Ring.content]

theorem Ring.content_getElem {n : Nat} {b : Ring} {i : Nat} (h : i < (b.content n).length) :
    (b.content n)[i] = b.mem.read ((b.head + i) % n) := by
  simp [Ring.content]

theorem Ring.content_eq_nil {n : Nat} {b : Ring} : b.content n = [] ↔ b.len = 0 := by
  rw [← List.length_eq_zero_iff, Ring.content_length]

/-- The invariant as the spec writes it: `len mod N == (tail - head) mod N` (R60). -/
theorem Ring.len_mod {n : Nat} {b : Ring} (h : b.wf n = true) : b.len % n = (b.tail + n - b.head) % n := by
  obtain ⟨hh, -, -, ht, -, -⟩ := (Ring.wf_iff n b).1 h
  have e : (b.head + b.len) % n + n - b.head = (b.head + b.len) % n + (n - b.head) := by omega
  rw [ht, e, Nat.mod_add_mod]
  have : b.head + b.len + (n - b.head) = b.len + n := by omega
  rw [this, Nat.add_mod_right]

theorem Ring.clear_wf {n : Nat} {b : Ring} (hn : 0 < n) (hm : b.mem.wf = true) (hc : ∀ c ∈ b.mem, c.1 < n) :
    b.clear.wf n = true := by
  rw [Ring.wf_iff]
  exact ⟨hn, hn, Nat.zero_le n, (Nat.zero_mod n).symm, hm, hc⟩

@[simp] theorem Ring.clear_content (n : Nat) (b : Ring) : b.clear.content n = [] := rfl

/-! ### Write -/

theorem Ring.write_full {n : Nat} {b : Ring} (h : b.len = n) (v : Byte) : b.write n v = (false, b) := by
  simp [Ring.write, h]

theorem Ring.write_room {n : Nat} {b : Ring} (h : b.len ≠ n) (v : Byte) : b.write n v =
    (true, { mem := b.mem.write b.tail v, head := b.head, tail := (b.tail + 1) % n, len := b.len + 1 }) := by
  simp [Ring.write, h]

theorem Ring.write_wf {n : Nat} {b : Ring} (h : b.wf n = true) (v : Byte) : (b.write n v).2.wf n = true := by
  by_cases hl : b.len = n
  · rwa [Ring.write_full hl]
  · obtain ⟨hh, ht, hle, hte, hm, hc⟩ := (Ring.wf_iff n b).1 h
    rw [Ring.write_room hl, Ring.wf_iff]
    refine ⟨hh, Nat.mod_lt _ (by omega), ?_, ?_, Memory.write_wf _ _ hm, Memory.write_addr _ _ ht hc⟩
    · show b.len + 1 ≤ n; omega
    · show (b.tail + 1) % n = (b.head + (b.len + 1)) % n
      rw [hte, Nat.mod_add_mod, Nat.add_assoc]

/-- Two offsets below the capacity that land on one index are equal. -/
theorem Ring.offset_inj {n h i j : Nat} (hi : i < n) (hj : j < n) (e : (h + i) % n = (h + j) % n) : i = j := by
  have := (Nat.ModEq.add_left_cancel' h (show h + i ≡ h + j [MOD n] from e))
  rwa [Nat.ModEq, Nat.mod_eq_of_lt hi, Nat.mod_eq_of_lt hj] at this

/-- A write: at the end of the content if there is room, else nothing (R62). -/
theorem Ring.write_content {n : Nat} {b : Ring} (h : b.wf n = true) (v : Byte) :
    (b.write n v).2.content n = if b.len = n then b.content n else b.content n ++ [v] := by
  split
  · rename_i hl; rw [Ring.write_full hl]
  · rename_i hl
    obtain ⟨hh, ht, hle, hte, hm, hc⟩ := (Ring.wf_iff n b).1 h
    have hs := ((Memory.wf_iff _).1 hm).1
    rw [Ring.write_room hl]
    simp only [Ring.content, List.range_succ, List.map_append, List.map_cons, List.map_nil]
    congr 1
    · refine List.map_congr_left fun i hi => ?_
      have hi := List.mem_range.1 hi
      rw [Memory.read_write hs, if_neg]
      intro e
      rw [hte] at e
      exact absurd (Ring.offset_inj (by omega) (by omega) e) (by omega)
    · rw [← hte, Memory.read_write hs, if_pos rfl]

/-- A write is accepted exactly when there is room (R62). -/
theorem Ring.write_accepted (n : Nat) (b : Ring) (v : Byte) : (b.write n v).1 = decide (b.len ≠ n) := by
  by_cases h : b.len = n <;> simp [Ring.write, h]

/-! ### Read and peek -/

theorem Ring.read_empty {n : Nat} {b : Ring} (h : b.len = 0) : b.read n = (none, b) := by
  simp [Ring.read, h]

theorem Ring.read_some {n : Nat} {b : Ring} (h : b.len ≠ 0) : b.read n =
    (some (b.mem.read b.head), { mem := b.mem, head := (b.head + 1) % n, tail := b.tail, len := b.len - 1 }) := by
  simp [Ring.read, h]

theorem Ring.read_wf {n : Nat} {b : Ring} (h : b.wf n = true) : (b.read n).2.wf n = true := by
  by_cases hl : b.len = 0
  · rwa [Ring.read_empty hl]
  · obtain ⟨hh, ht, hle, hte, hm, hc⟩ := (Ring.wf_iff n b).1 h
    rw [Ring.read_some hl, Ring.wf_iff]
    refine ⟨Nat.mod_lt _ (by omega), ht, ?_, ?_, hm, hc⟩
    · show b.len - 1 ≤ n; omega
    · show b.tail = ((b.head + 1) % n + (b.len - 1)) % n
      rw [hte, Nat.mod_add_mod]
      congr 1
      omega

/-- Everything a read does to the content (R63): the head goes, the rest stays in order. -/
theorem Ring.read_content {n : Nat} {b : Ring} (h : b.wf n = true) :
    (b.read n).1 = (b.content n).head? ∧ (b.read n).2.content n = (b.content n).tail := by
  by_cases hl : b.len = 0
  · rw [Ring.read_empty hl, Ring.content_eq_nil.2 hl]; exact ⟨rfl, rfl⟩
  · obtain ⟨hh, -, -, -, -, -⟩ := (Ring.wf_iff n b).1 h
    obtain ⟨k, hk⟩ := Nat.exists_eq_succ_of_ne_zero hl
    rw [Ring.read_some hl]
    simp only [Ring.content, hk, List.range_succ_eq_map, List.map_cons, List.head?_cons, List.tail_cons, List.map_map,
      Nat.succ_eq_add_one, Nat.add_sub_cancel, Nat.add_zero, Nat.mod_eq_of_lt hh, true_and]
    refine List.map_congr_left fun i _ => ?_
    simp only [Function.comp, Nat.mod_add_mod]
    congr 2
    omega

/-- A peek sees the oldest byte (R64). -/
theorem Ring.peek_content {n : Nat} {b : Ring} (h : b.wf n = true) : b.peek = (b.content n).head? := by
  rw [← (Ring.read_content h).1]
  by_cases hl : b.len = 0 <;> simp [Ring.peek, Ring.read, hl]

@[simp] theorem Ring.read_len (n : Nat) (b : Ring) : (b.read n).2.len = b.len - 1 := by
  by_cases hl : b.len = 0 <;> simp [Ring.read, hl]

@[simp] theorem Ring.read_tail (n : Nat) (b : Ring) : (b.read n).2.tail = b.tail := by
  by_cases hl : b.len = 0 <;> simp [Ring.read, hl]

@[simp] theorem Ring.read_mem (n : Nat) (b : Ring) : (b.read n).2.mem = b.mem := by
  by_cases hl : b.len = 0 <;> simp [Ring.read, hl]

/-! ### Several reads -/

theorem Ring.pop_succ (n k : Nat) (b : Ring) : Ring.pop n (k + 1) b =
    match (b.read n).1 with
    | none => ([], (b.read n).2)
    | some v => (v :: (Ring.pop n k (b.read n).2).1, (Ring.pop n k (b.read n).2).2) := by
  simp only [Ring.pop]
  rcases b.read n with ⟨_ | v, b1⟩ <;> rfl

theorem Ring.pop_wf {n : Nat} (k : Nat) {b : Ring} (h : b.wf n = true) : (Ring.pop n k b).2.wf n = true := by
  induction k generalizing b with
  | zero => exact h
  | succ k ih =>
    rw [Ring.pop_succ]
    split
    · exact Ring.read_wf h
    · exact ih (Ring.read_wf h)

/-- `k` reads take the first `k` bytes, in order (R67, R171). -/
theorem Ring.pop_content {n : Nat} (k : Nat) {b : Ring} (h : b.wf n = true) :
    (Ring.pop n k b).1 = (b.content n).take k ∧ (Ring.pop n k b).2.content n = (b.content n).drop k := by
  induction k generalizing b with
  | zero => simp [Ring.pop]
  | succ k ih =>
    obtain ⟨h1, h2⟩ := Ring.read_content h
    obtain ⟨i1, i2⟩ := ih (Ring.read_wf h)
    rw [Ring.pop_succ, h1]
    cases hc : b.content n with
    | nil => simp [h2, hc]
    | cons x xs => simp [i1, i2, h2, hc]

/-- Where several reads leave a buffer that holds enough (R63): the head and the length moved on, the store not written. -/
theorem Ring.pop_indices {n : Nat} (k : Nat) {b : Ring} (hk : k ≤ b.len) (hh : b.head < n) : (Ring.pop n k b).2 =
    { mem := b.mem, head := (b.head + k) % n, tail := b.tail, len := b.len - k } := by
  induction k generalizing b with
  | zero => simp [Ring.pop, Nat.mod_eq_of_lt hh]
  | succ k ih =>
    have hl : b.len ≠ 0 := by omega
    rw [Ring.pop_succ, Ring.read_some hl]
    simp only
    rw [ih (by simp only; omega) (Nat.mod_lt _ (by omega))]
    simp only [Nat.mod_add_mod, Ring.mk.injEq, true_and]
    exact ⟨by rw [Nat.add_assoc, Nat.add_comm 1 k], by omega⟩

end Sys2Proof.Machine
end

