-- ==== Sys2Proof/Laws/State.lean ====
section
/-! SUPPORT. One lemma per field per named update of the state, true by rfl: what the update writes, and that it leaves the field. -/

namespace Sys2Proof.Machine

variable (s : State)

@[simp] theorem State.serialCount_answer : s.serialCount.1 = s.env.advance.rxQueue.length := rfl
@[simp] theorem State.gpioReadRx_answer : s.gpioReadRx.1 = s.env.advance.rxLevel := rfl
@[simp] theorem State.readMicros_answer : s.readMicros.1 = s.env.advance.micros := rfl
@[simp] theorem State.readMillis_answer : s.readMillis.1 = s.env.advance.millis := rfl

/-! ### What an event leaves on the pins (R37) -/
@[simp] theorem Pins.note_serialCount (p : Pins) (n : Nat) : p.note (.serialCount n) = p := rfl
@[simp] theorem Pins.note_serialRead (p : Pins) (b : Byte) : p.note (.serialRead b) = p := rfl
@[simp] theorem Pins.note_serialWrite (p : Pins) (b : Byte) : p.note (.serialWrite b) = p := rfl
@[simp] theorem Pins.note_serialFlush (p : Pins) : p.note .serialFlush = p := rfl
@[simp] theorem Pins.note_serialBegin (p : Pins) (r : BitVec 20) : p.note (.serialBegin r) = { p with txOwner := .serial } := rfl
@[simp] theorem Pins.note_serialTxStop (p : Pins) : p.note .serialTxStop = { p with txOwner := .gpio } := rfl
@[simp] theorem Pins.note_serialRestart (p : Pins) : p.note .serialRestart = { p with txOwner := .serial } := rfl
@[simp] theorem Pins.note_modeRx (p : Pins) (m : PinMode) : p.note (.pinMode .rx m) = { p with modeRx := m } := rfl
@[simp] theorem Pins.note_modeTx (p : Pins) (m : PinMode) : p.note (.pinMode .tx m) = { p with modeTx := m } := rfl
@[simp] theorem Pins.note_modeCs (p : Pins) (m : PinMode) : p.note (.pinMode .cs m) = { p with modeCs := m } := rfl
@[simp] theorem Pins.note_writeRx (p : Pins) (l : Level) : p.note (.gpioWrite .rx l) = p := rfl
@[simp] theorem Pins.note_writeTx (p : Pins) (l : Level) : p.note (.gpioWrite .tx l) = { p with txLevel := l } := rfl
@[simp] theorem Pins.note_writeCs (p : Pins) (l : Level) : p.note (.gpioWrite .cs l) = { p with csLevel := l } := rfl
@[simp] theorem Pins.note_gpioRead (p : Pins) (q : Pin) (l : Level) : p.note (.gpioRead q l) = p := rfl
@[simp] theorem Pins.note_micros (p : Pins) (t : Time) : p.note (.micros t) = p := rfl
@[simp] theorem Pins.note_millis (p : Pins) (t : Time) : p.note (.millis t) = p := rfl
@[simp] theorem Pins.note_delayUs (p : Pins) (n : Nat) : p.note (.delayUs n) = p := rfl

/-! ### emit -/
@[simp] theorem State.emit_cfg (e : Event) : (s.emit e).cfg = s.cfg := rfl
@[simp] theorem State.emit_role (e : Event) : (s.emit e).role = s.role := rfl
@[simp] theorem State.emit_devState (e : Event) : (s.emit e).devState = s.devState := rfl
@[simp] theorem State.emit_phase (e : Event) : (s.emit e).phase = s.phase := rfl
@[simp] theorem State.emit_baud (e : Event) : (s.emit e).baud = s.baud := rfl
@[simp] theorem State.emit_bitUs (e : Event) : (s.emit e).bitUs = s.bitUs := rfl
@[simp] theorem State.emit_linVersion (e : Event) : (s.emit e).linVersion = s.linVersion := rfl
@[simp] theorem State.emit_fb (e : Event) : (s.emit e).fb = s.fb := rfl
@[simp] theorem State.emit_sp (e : Event) : (s.emit e).sp = s.sp := rfl
@[simp] theorem State.emit_det (e : Event) : (s.emit e).det = s.det := rfl
@[simp] theorem State.emit_scratch (e : Event) : (s.emit e).scratch = s.scratch := rfl
@[simp] theorem State.emit_wdata (e : Event) : (s.emit e).wdata = s.wdata := rfl
@[simp] theorem State.emit_rdata (e : Event) : (s.emit e).rdata = s.rdata := rfl
@[simp] theorem State.emit_result (e : Event) : (s.emit e).result = s.result := rfl
@[simp] theorem State.emit_rspValid (e : Event) : (s.emit e).rspValid = s.rspValid := rfl
@[simp] theorem State.emit_pins (e : Event) : (s.emit e).pins = s.pins.note e := rfl
@[simp] theorem State.emit_trace (e : Event) : (s.emit e).trace = s.trace ++ [e] := rfl
@[simp] theorem State.emit_cmds (e : Event) : (s.emit e).cmds = s.cmds := rfl
@[simp] theorem State.emit_env (e : Event) : (s.emit e).env = s.env := rfl

/-! ### withEnv -/
@[simp] theorem State.withEnv_cfg (e : Env) : (s.withEnv e).cfg = s.cfg := rfl
@[simp] theorem State.withEnv_role (e : Env) : (s.withEnv e).role = s.role := rfl
@[simp] theorem State.withEnv_devState (e : Env) : (s.withEnv e).devState = s.devState := rfl
@[simp] theorem State.withEnv_phase (e : Env) : (s.withEnv e).phase = s.phase := rfl
@[simp] theorem State.withEnv_baud (e : Env) : (s.withEnv e).baud = s.baud := rfl
@[simp] theorem State.withEnv_bitUs (e : Env) : (s.withEnv e).bitUs = s.bitUs := rfl
@[simp] theorem State.withEnv_linVersion (e : Env) : (s.withEnv e).linVersion = s.linVersion := rfl
@[simp] theorem State.withEnv_fb (e : Env) : (s.withEnv e).fb = s.fb := rfl
@[simp] theorem State.withEnv_sp (e : Env) : (s.withEnv e).sp = s.sp := rfl
@[simp] theorem State.withEnv_det (e : Env) : (s.withEnv e).det = s.det := rfl
@[simp] theorem State.withEnv_scratch (e : Env) : (s.withEnv e).scratch = s.scratch := rfl
@[simp] theorem State.withEnv_wdata (e : Env) : (s.withEnv e).wdata = s.wdata := rfl
@[simp] theorem State.withEnv_rdata (e : Env) : (s.withEnv e).rdata = s.rdata := rfl
@[simp] theorem State.withEnv_result (e : Env) : (s.withEnv e).result = s.result := rfl
@[simp] theorem State.withEnv_rspValid (e : Env) : (s.withEnv e).rspValid = s.rspValid := rfl
@[simp] theorem State.withEnv_pins (e : Env) : (s.withEnv e).pins = s.pins := rfl
@[simp] theorem State.withEnv_trace (e : Env) : (s.withEnv e).trace = s.trace := rfl
@[simp] theorem State.withEnv_cmds (e : Env) : (s.withEnv e).cmds = s.cmds := rfl
@[simp] theorem State.withEnv_env (e : Env) : (s.withEnv e).env = e := rfl

/-! ### serialCount -/
@[simp] theorem State.serialCount_cfg : (s.serialCount.2).cfg = s.cfg := rfl
@[simp] theorem State.serialCount_role : (s.serialCount.2).role = s.role := rfl
@[simp] theorem State.serialCount_devState : (s.serialCount.2).devState = s.devState := rfl
@[simp] theorem State.serialCount_phase : (s.serialCount.2).phase = s.phase := rfl
@[simp] theorem State.serialCount_baud : (s.serialCount.2).baud = s.baud := rfl
@[simp] theorem State.serialCount_bitUs : (s.serialCount.2).bitUs = s.bitUs := rfl
@[simp] theorem State.serialCount_linVersion : (s.serialCount.2).linVersion = s.linVersion := rfl
@[simp] theorem State.serialCount_fb : (s.serialCount.2).fb = s.fb := rfl
@[simp] theorem State.serialCount_sp : (s.serialCount.2).sp = s.sp := rfl
@[simp] theorem State.serialCount_det : (s.serialCount.2).det = s.det := rfl
@[simp] theorem State.serialCount_scratch : (s.serialCount.2).scratch = s.scratch := rfl
@[simp] theorem State.serialCount_wdata : (s.serialCount.2).wdata = s.wdata := rfl
@[simp] theorem State.serialCount_rdata : (s.serialCount.2).rdata = s.rdata := rfl
@[simp] theorem State.serialCount_result : (s.serialCount.2).result = s.result := rfl
@[simp] theorem State.serialCount_rspValid : (s.serialCount.2).rspValid = s.rspValid := rfl
@[simp] theorem State.serialCount_pins : (s.serialCount.2).pins = s.pins := rfl
@[simp] theorem State.serialCount_trace : (s.serialCount.2).trace = s.trace ++ [.serialCount s.env.advance.rxQueue.length] := rfl
@[simp] theorem State.serialCount_cmds : (s.serialCount.2).cmds = s.cmds := rfl
@[simp] theorem State.serialCount_env : (s.serialCount.2).env = s.env.advance := rfl

/-! ### serialWrite -/
@[simp] theorem State.serialWrite_cfg (b : Byte) : (s.serialWrite b).cfg = s.cfg := rfl
@[simp] theorem State.serialWrite_role (b : Byte) : (s.serialWrite b).role = s.role := rfl
@[simp] theorem State.serialWrite_devState (b : Byte) : (s.serialWrite b).devState = s.devState := rfl
@[simp] theorem State.serialWrite_phase (b : Byte) : (s.serialWrite b).phase = s.phase := rfl
@[simp] theorem State.serialWrite_baud (b : Byte) : (s.serialWrite b).baud = s.baud := rfl
@[simp] theorem State.serialWrite_bitUs (b : Byte) : (s.serialWrite b).bitUs = s.bitUs := rfl
@[simp] theorem State.serialWrite_linVersion (b : Byte) : (s.serialWrite b).linVersion = s.linVersion := rfl
@[simp] theorem State.serialWrite_fb (b : Byte) : (s.serialWrite b).fb = s.fb := rfl
@[simp] theorem State.serialWrite_sp (b : Byte) : (s.serialWrite b).sp = s.sp := rfl
@[simp] theorem State.serialWrite_det (b : Byte) : (s.serialWrite b).det = s.det := rfl
@[simp] theorem State.serialWrite_scratch (b : Byte) : (s.serialWrite b).scratch = s.scratch := rfl
@[simp] theorem State.serialWrite_wdata (b : Byte) : (s.serialWrite b).wdata = s.wdata := rfl
@[simp] theorem State.serialWrite_rdata (b : Byte) : (s.serialWrite b).rdata = s.rdata := rfl
@[simp] theorem State.serialWrite_result (b : Byte) : (s.serialWrite b).result = s.result := rfl
@[simp] theorem State.serialWrite_rspValid (b : Byte) : (s.serialWrite b).rspValid = s.rspValid := rfl
@[simp] theorem State.serialWrite_pins (b : Byte) : (s.serialWrite b).pins = s.pins := rfl
@[simp] theorem State.serialWrite_trace (b : Byte) : (s.serialWrite b).trace = s.trace ++ [.serialWrite b] := rfl
@[simp] theorem State.serialWrite_cmds (b : Byte) : (s.serialWrite b).cmds = s.cmds := rfl
@[simp] theorem State.serialWrite_env (b : Byte) : (s.serialWrite b).env = { s.env with txPending := s.env.txPending ++ [b] } := rfl

/-! ### serialFlush -/
@[simp] theorem State.serialFlush_cfg : (s.serialFlush).cfg = s.cfg := rfl
@[simp] theorem State.serialFlush_role : (s.serialFlush).role = s.role := rfl
@[simp] theorem State.serialFlush_devState : (s.serialFlush).devState = s.devState := rfl
@[simp] theorem State.serialFlush_phase : (s.serialFlush).phase = s.phase := rfl
@[simp] theorem State.serialFlush_baud : (s.serialFlush).baud = s.baud := rfl
@[simp] theorem State.serialFlush_bitUs : (s.serialFlush).bitUs = s.bitUs := rfl
@[simp] theorem State.serialFlush_linVersion : (s.serialFlush).linVersion = s.linVersion := rfl
@[simp] theorem State.serialFlush_fb : (s.serialFlush).fb = s.fb := rfl
@[simp] theorem State.serialFlush_sp : (s.serialFlush).sp = s.sp := rfl
@[simp] theorem State.serialFlush_det : (s.serialFlush).det = s.det := rfl
@[simp] theorem State.serialFlush_scratch : (s.serialFlush).scratch = s.scratch := rfl
@[simp] theorem State.serialFlush_wdata : (s.serialFlush).wdata = s.wdata := rfl
@[simp] theorem State.serialFlush_rdata : (s.serialFlush).rdata = s.rdata := rfl
@[simp] theorem State.serialFlush_result : (s.serialFlush).result = s.result := rfl
@[simp] theorem State.serialFlush_rspValid : (s.serialFlush).rspValid = s.rspValid := rfl
@[simp] theorem State.serialFlush_pins : (s.serialFlush).pins = s.pins := rfl
@[simp] theorem State.serialFlush_trace : (s.serialFlush).trace = s.trace ++ [.serialFlush] := rfl
@[simp] theorem State.serialFlush_cmds : (s.serialFlush).cmds = s.cmds := rfl
@[simp] theorem State.serialFlush_env : (s.serialFlush).env = { s.env with txPending := [] } := rfl

/-! ### serialBegin -/
@[simp] theorem State.serialBegin_cfg (r : BitVec 20) : (s.serialBegin r).cfg = s.cfg := rfl
@[simp] theorem State.serialBegin_role (r : BitVec 20) : (s.serialBegin r).role = s.role := rfl
@[simp] theorem State.serialBegin_devState (r : BitVec 20) : (s.serialBegin r).devState = s.devState := rfl
@[simp] theorem State.serialBegin_phase (r : BitVec 20) : (s.serialBegin r).phase = s.phase := rfl
@[simp] theorem State.serialBegin_baud (r : BitVec 20) : (s.serialBegin r).baud = s.baud := rfl
@[simp] theorem State.serialBegin_bitUs (r : BitVec 20) : (s.serialBegin r).bitUs = s.bitUs := rfl
@[simp] theorem State.serialBegin_linVersion (r : BitVec 20) : (s.serialBegin r).linVersion = s.linVersion := rfl
@[simp] theorem State.serialBegin_fb (r : BitVec 20) : (s.serialBegin r).fb = s.fb := rfl
@[simp] theorem State.serialBegin_sp (r : BitVec 20) : (s.serialBegin r).sp = s.sp := rfl
@[simp] theorem State.serialBegin_det (r : BitVec 20) : (s.serialBegin r).det = s.det := rfl
@[simp] theorem State.serialBegin_scratch (r : BitVec 20) : (s.serialBegin r).scratch = s.scratch := rfl
@[simp] theorem State.serialBegin_wdata (r : BitVec 20) : (s.serialBegin r).wdata = s.wdata := rfl
@[simp] theorem State.serialBegin_rdata (r : BitVec 20) : (s.serialBegin r).rdata = s.rdata := rfl
@[simp] theorem State.serialBegin_result (r : BitVec 20) : (s.serialBegin r).result = s.result := rfl
@[simp] theorem State.serialBegin_rspValid (r : BitVec 20) : (s.serialBegin r).rspValid = s.rspValid := rfl
@[simp] theorem State.serialBegin_pins (r : BitVec 20) : (s.serialBegin r).pins = { s.pins with txOwner := .serial } := rfl
@[simp] theorem State.serialBegin_trace (r : BitVec 20) : (s.serialBegin r).trace = s.trace ++ [.serialBegin r] := rfl
@[simp] theorem State.serialBegin_cmds (r : BitVec 20) : (s.serialBegin r).cmds = s.cmds := rfl
@[simp] theorem State.serialBegin_env (r : BitVec 20) : (s.serialBegin r).env = s.env.peripheral := rfl

/-! ### serialTxStop -/
@[simp] theorem State.serialTxStop_cfg : (s.serialTxStop).cfg = s.cfg := rfl
@[simp] theorem State.serialTxStop_role : (s.serialTxStop).role = s.role := rfl
@[simp] theorem State.serialTxStop_devState : (s.serialTxStop).devState = s.devState := rfl
@[simp] theorem State.serialTxStop_phase : (s.serialTxStop).phase = s.phase := rfl
@[simp] theorem State.serialTxStop_baud : (s.serialTxStop).baud = s.baud := rfl
@[simp] theorem State.serialTxStop_bitUs : (s.serialTxStop).bitUs = s.bitUs := rfl
@[simp] theorem State.serialTxStop_linVersion : (s.serialTxStop).linVersion = s.linVersion := rfl
@[simp] theorem State.serialTxStop_fb : (s.serialTxStop).fb = s.fb := rfl
@[simp] theorem State.serialTxStop_sp : (s.serialTxStop).sp = s.sp := rfl
@[simp] theorem State.serialTxStop_det : (s.serialTxStop).det = s.det := rfl
@[simp] theorem State.serialTxStop_scratch : (s.serialTxStop).scratch = s.scratch := rfl
@[simp] theorem State.serialTxStop_wdata : (s.serialTxStop).wdata = s.wdata := rfl
@[simp] theorem State.serialTxStop_rdata : (s.serialTxStop).rdata = s.rdata := rfl
@[simp] theorem State.serialTxStop_result : (s.serialTxStop).result = s.result := rfl
@[simp] theorem State.serialTxStop_rspValid : (s.serialTxStop).rspValid = s.rspValid := rfl
@[simp] theorem State.serialTxStop_pins : (s.serialTxStop).pins = { s.pins with txOwner := .gpio } := rfl
@[simp] theorem State.serialTxStop_trace : (s.serialTxStop).trace = s.trace ++ [.serialTxStop] := rfl
@[simp] theorem State.serialTxStop_cmds : (s.serialTxStop).cmds = s.cmds := rfl
@[simp] theorem State.serialTxStop_env : (s.serialTxStop).env = s.env.peripheral := rfl

/-! ### serialRestart -/
@[simp] theorem State.serialRestart_cfg : (s.serialRestart).cfg = s.cfg := rfl
@[simp] theorem State.serialRestart_role : (s.serialRestart).role = s.role := rfl
@[simp] theorem State.serialRestart_devState : (s.serialRestart).devState = s.devState := rfl
@[simp] theorem State.serialRestart_phase : (s.serialRestart).phase = s.phase := rfl
@[simp] theorem State.serialRestart_baud : (s.serialRestart).baud = s.baud := rfl
@[simp] theorem State.serialRestart_bitUs : (s.serialRestart).bitUs = s.bitUs := rfl
@[simp] theorem State.serialRestart_linVersion : (s.serialRestart).linVersion = s.linVersion := rfl
@[simp] theorem State.serialRestart_fb : (s.serialRestart).fb = s.fb := rfl
@[simp] theorem State.serialRestart_sp : (s.serialRestart).sp = s.sp := rfl
@[simp] theorem State.serialRestart_det : (s.serialRestart).det = s.det := rfl
@[simp] theorem State.serialRestart_scratch : (s.serialRestart).scratch = s.scratch := rfl
@[simp] theorem State.serialRestart_wdata : (s.serialRestart).wdata = s.wdata := rfl
@[simp] theorem State.serialRestart_rdata : (s.serialRestart).rdata = s.rdata := rfl
@[simp] theorem State.serialRestart_result : (s.serialRestart).result = s.result := rfl
@[simp] theorem State.serialRestart_rspValid : (s.serialRestart).rspValid = s.rspValid := rfl
@[simp] theorem State.serialRestart_pins : (s.serialRestart).pins = { s.pins with txOwner := .serial } := rfl
@[simp] theorem State.serialRestart_trace : (s.serialRestart).trace = s.trace ++ [.serialRestart] := rfl
@[simp] theorem State.serialRestart_cmds : (s.serialRestart).cmds = s.cmds := rfl
@[simp] theorem State.serialRestart_env : (s.serialRestart).env = s.env.peripheral := rfl

/-! ### setPinMode -/
@[simp] theorem State.setPinMode_cfg (p : Pin) (m : PinMode) : (s.setPinMode p m).cfg = s.cfg := rfl
@[simp] theorem State.setPinMode_role (p : Pin) (m : PinMode) : (s.setPinMode p m).role = s.role := rfl
@[simp] theorem State.setPinMode_devState (p : Pin) (m : PinMode) : (s.setPinMode p m).devState = s.devState := rfl
@[simp] theorem State.setPinMode_phase (p : Pin) (m : PinMode) : (s.setPinMode p m).phase = s.phase := rfl
@[simp] theorem State.setPinMode_baud (p : Pin) (m : PinMode) : (s.setPinMode p m).baud = s.baud := rfl
@[simp] theorem State.setPinMode_bitUs (p : Pin) (m : PinMode) : (s.setPinMode p m).bitUs = s.bitUs := rfl
@[simp] theorem State.setPinMode_linVersion (p : Pin) (m : PinMode) : (s.setPinMode p m).linVersion = s.linVersion := rfl
@[simp] theorem State.setPinMode_fb (p : Pin) (m : PinMode) : (s.setPinMode p m).fb = s.fb := rfl
@[simp] theorem State.setPinMode_sp (p : Pin) (m : PinMode) : (s.setPinMode p m).sp = s.sp := rfl
@[simp] theorem State.setPinMode_det (p : Pin) (m : PinMode) : (s.setPinMode p m).det = s.det := rfl
@[simp] theorem State.setPinMode_scratch (p : Pin) (m : PinMode) : (s.setPinMode p m).scratch = s.scratch := rfl
@[simp] theorem State.setPinMode_wdata (p : Pin) (m : PinMode) : (s.setPinMode p m).wdata = s.wdata := rfl
@[simp] theorem State.setPinMode_rdata (p : Pin) (m : PinMode) : (s.setPinMode p m).rdata = s.rdata := rfl
@[simp] theorem State.setPinMode_result (p : Pin) (m : PinMode) : (s.setPinMode p m).result = s.result := rfl
@[simp] theorem State.setPinMode_rspValid (p : Pin) (m : PinMode) : (s.setPinMode p m).rspValid = s.rspValid := rfl
@[simp] theorem State.setPinMode_pins (p : Pin) (m : PinMode) : (s.setPinMode p m).pins = s.pins.note (.pinMode p m) := rfl
@[simp] theorem State.setPinMode_trace (p : Pin) (m : PinMode) : (s.setPinMode p m).trace = s.trace ++ [.pinMode p m] := rfl
@[simp] theorem State.setPinMode_cmds (p : Pin) (m : PinMode) : (s.setPinMode p m).cmds = s.cmds := rfl
@[simp] theorem State.setPinMode_env (p : Pin) (m : PinMode) : (s.setPinMode p m).env = s.env := rfl

/-! ### gpioWrite -/
@[simp] theorem State.gpioWrite_cfg (p : Pin) (l : Level) : (s.gpioWrite p l).cfg = s.cfg := rfl
@[simp] theorem State.gpioWrite_role (p : Pin) (l : Level) : (s.gpioWrite p l).role = s.role := rfl
@[simp] theorem State.gpioWrite_devState (p : Pin) (l : Level) : (s.gpioWrite p l).devState = s.devState := rfl
@[simp] theorem State.gpioWrite_phase (p : Pin) (l : Level) : (s.gpioWrite p l).phase = s.phase := rfl
@[simp] theorem State.gpioWrite_baud (p : Pin) (l : Level) : (s.gpioWrite p l).baud = s.baud := rfl
@[simp] theorem State.gpioWrite_bitUs (p : Pin) (l : Level) : (s.gpioWrite p l).bitUs = s.bitUs := rfl
@[simp] theorem State.gpioWrite_linVersion (p : Pin) (l : Level) : (s.gpioWrite p l).linVersion = s.linVersion := rfl
@[simp] theorem State.gpioWrite_fb (p : Pin) (l : Level) : (s.gpioWrite p l).fb = s.fb := rfl
@[simp] theorem State.gpioWrite_sp (p : Pin) (l : Level) : (s.gpioWrite p l).sp = s.sp := rfl
@[simp] theorem State.gpioWrite_det (p : Pin) (l : Level) : (s.gpioWrite p l).det = s.det := rfl
@[simp] theorem State.gpioWrite_scratch (p : Pin) (l : Level) : (s.gpioWrite p l).scratch = s.scratch := rfl
@[simp] theorem State.gpioWrite_wdata (p : Pin) (l : Level) : (s.gpioWrite p l).wdata = s.wdata := rfl
@[simp] theorem State.gpioWrite_rdata (p : Pin) (l : Level) : (s.gpioWrite p l).rdata = s.rdata := rfl
@[simp] theorem State.gpioWrite_result (p : Pin) (l : Level) : (s.gpioWrite p l).result = s.result := rfl
@[simp] theorem State.gpioWrite_rspValid (p : Pin) (l : Level) : (s.gpioWrite p l).rspValid = s.rspValid := rfl
@[simp] theorem State.gpioWrite_pins (p : Pin) (l : Level) : (s.gpioWrite p l).pins = s.pins.note (.gpioWrite p l) := rfl
@[simp] theorem State.gpioWrite_trace (p : Pin) (l : Level) : (s.gpioWrite p l).trace = s.trace ++ [.gpioWrite p l] := rfl
@[simp] theorem State.gpioWrite_cmds (p : Pin) (l : Level) : (s.gpioWrite p l).cmds = s.cmds := rfl
@[simp] theorem State.gpioWrite_env (p : Pin) (l : Level) : (s.gpioWrite p l).env = s.env := rfl

/-! ### gpioReadRx -/
@[simp] theorem State.gpioReadRx_cfg : (s.gpioReadRx.2).cfg = s.cfg := rfl
@[simp] theorem State.gpioReadRx_role : (s.gpioReadRx.2).role = s.role := rfl
@[simp] theorem State.gpioReadRx_devState : (s.gpioReadRx.2).devState = s.devState := rfl
@[simp] theorem State.gpioReadRx_phase : (s.gpioReadRx.2).phase = s.phase := rfl
@[simp] theorem State.gpioReadRx_baud : (s.gpioReadRx.2).baud = s.baud := rfl
@[simp] theorem State.gpioReadRx_bitUs : (s.gpioReadRx.2).bitUs = s.bitUs := rfl
@[simp] theorem State.gpioReadRx_linVersion : (s.gpioReadRx.2).linVersion = s.linVersion := rfl
@[simp] theorem State.gpioReadRx_fb : (s.gpioReadRx.2).fb = s.fb := rfl
@[simp] theorem State.gpioReadRx_sp : (s.gpioReadRx.2).sp = s.sp := rfl
@[simp] theorem State.gpioReadRx_det : (s.gpioReadRx.2).det = s.det := rfl
@[simp] theorem State.gpioReadRx_scratch : (s.gpioReadRx.2).scratch = s.scratch := rfl
@[simp] theorem State.gpioReadRx_wdata : (s.gpioReadRx.2).wdata = s.wdata := rfl
@[simp] theorem State.gpioReadRx_rdata : (s.gpioReadRx.2).rdata = s.rdata := rfl
@[simp] theorem State.gpioReadRx_result : (s.gpioReadRx.2).result = s.result := rfl
@[simp] theorem State.gpioReadRx_rspValid : (s.gpioReadRx.2).rspValid = s.rspValid := rfl
@[simp] theorem State.gpioReadRx_pins : (s.gpioReadRx.2).pins = s.pins := rfl
@[simp] theorem State.gpioReadRx_trace : (s.gpioReadRx.2).trace = s.trace ++ [.gpioRead .rx s.env.advance.rxLevel] := rfl
@[simp] theorem State.gpioReadRx_cmds : (s.gpioReadRx.2).cmds = s.cmds := rfl
@[simp] theorem State.gpioReadRx_env : (s.gpioReadRx.2).env = s.env.advance := rfl

/-! ### readMicros -/
@[simp] theorem State.readMicros_cfg : (s.readMicros.2).cfg = s.cfg := rfl
@[simp] theorem State.readMicros_role : (s.readMicros.2).role = s.role := rfl
@[simp] theorem State.readMicros_devState : (s.readMicros.2).devState = s.devState := rfl
@[simp] theorem State.readMicros_phase : (s.readMicros.2).phase = s.phase := rfl
@[simp] theorem State.readMicros_baud : (s.readMicros.2).baud = s.baud := rfl
@[simp] theorem State.readMicros_bitUs : (s.readMicros.2).bitUs = s.bitUs := rfl
@[simp] theorem State.readMicros_linVersion : (s.readMicros.2).linVersion = s.linVersion := rfl
@[simp] theorem State.readMicros_fb : (s.readMicros.2).fb = s.fb := rfl
@[simp] theorem State.readMicros_sp : (s.readMicros.2).sp = s.sp := rfl
@[simp] theorem State.readMicros_det : (s.readMicros.2).det = s.det := rfl
@[simp] theorem State.readMicros_scratch : (s.readMicros.2).scratch = s.scratch := rfl
@[simp] theorem State.readMicros_wdata : (s.readMicros.2).wdata = s.wdata := rfl
@[simp] theorem State.readMicros_rdata : (s.readMicros.2).rdata = s.rdata := rfl
@[simp] theorem State.readMicros_result : (s.readMicros.2).result = s.result := rfl
@[simp] theorem State.readMicros_rspValid : (s.readMicros.2).rspValid = s.rspValid := rfl
@[simp] theorem State.readMicros_pins : (s.readMicros.2).pins = s.pins := rfl
@[simp] theorem State.readMicros_trace : (s.readMicros.2).trace = s.trace ++ [.micros s.env.advance.micros] := rfl
@[simp] theorem State.readMicros_cmds : (s.readMicros.2).cmds = s.cmds := rfl
@[simp] theorem State.readMicros_env : (s.readMicros.2).env = s.env.advance := rfl

/-! ### readMillis -/
@[simp] theorem State.readMillis_cfg : (s.readMillis.2).cfg = s.cfg := rfl
@[simp] theorem State.readMillis_role : (s.readMillis.2).role = s.role := rfl
@[simp] theorem State.readMillis_devState : (s.readMillis.2).devState = s.devState := rfl
@[simp] theorem State.readMillis_phase : (s.readMillis.2).phase = s.phase := rfl
@[simp] theorem State.readMillis_baud : (s.readMillis.2).baud = s.baud := rfl
@[simp] theorem State.readMillis_bitUs : (s.readMillis.2).bitUs = s.bitUs := rfl
@[simp] theorem State.readMillis_linVersion : (s.readMillis.2).linVersion = s.linVersion := rfl
@[simp] theorem State.readMillis_fb : (s.readMillis.2).fb = s.fb := rfl
@[simp] theorem State.readMillis_sp : (s.readMillis.2).sp = s.sp := rfl
@[simp] theorem State.readMillis_det : (s.readMillis.2).det = s.det := rfl
@[simp] theorem State.readMillis_scratch : (s.readMillis.2).scratch = s.scratch := rfl
@[simp] theorem State.readMillis_wdata : (s.readMillis.2).wdata = s.wdata := rfl
@[simp] theorem State.readMillis_rdata : (s.readMillis.2).rdata = s.rdata := rfl
@[simp] theorem State.readMillis_result : (s.readMillis.2).result = s.result := rfl
@[simp] theorem State.readMillis_rspValid : (s.readMillis.2).rspValid = s.rspValid := rfl
@[simp] theorem State.readMillis_pins : (s.readMillis.2).pins = s.pins := rfl
@[simp] theorem State.readMillis_trace : (s.readMillis.2).trace = s.trace ++ [.millis s.env.advance.millis] := rfl
@[simp] theorem State.readMillis_cmds : (s.readMillis.2).cmds = s.cmds := rfl
@[simp] theorem State.readMillis_env : (s.readMillis.2).env = s.env.advance := rfl

/-! ### delayUs -/
@[simp] theorem State.delayUs_cfg (n : Nat) : (s.delayUs n).cfg = s.cfg := rfl
@[simp] theorem State.delayUs_role (n : Nat) : (s.delayUs n).role = s.role := rfl
@[simp] theorem State.delayUs_devState (n : Nat) : (s.delayUs n).devState = s.devState := rfl
@[simp] theorem State.delayUs_phase (n : Nat) : (s.delayUs n).phase = s.phase := rfl
@[simp] theorem State.delayUs_baud (n : Nat) : (s.delayUs n).baud = s.baud := rfl
@[simp] theorem State.delayUs_bitUs (n : Nat) : (s.delayUs n).bitUs = s.bitUs := rfl
@[simp] theorem State.delayUs_linVersion (n : Nat) : (s.delayUs n).linVersion = s.linVersion := rfl
@[simp] theorem State.delayUs_fb (n : Nat) : (s.delayUs n).fb = s.fb := rfl
@[simp] theorem State.delayUs_sp (n : Nat) : (s.delayUs n).sp = s.sp := rfl
@[simp] theorem State.delayUs_det (n : Nat) : (s.delayUs n).det = s.det := rfl
@[simp] theorem State.delayUs_scratch (n : Nat) : (s.delayUs n).scratch = s.scratch := rfl
@[simp] theorem State.delayUs_wdata (n : Nat) : (s.delayUs n).wdata = s.wdata := rfl
@[simp] theorem State.delayUs_rdata (n : Nat) : (s.delayUs n).rdata = s.rdata := rfl
@[simp] theorem State.delayUs_result (n : Nat) : (s.delayUs n).result = s.result := rfl
@[simp] theorem State.delayUs_rspValid (n : Nat) : (s.delayUs n).rspValid = s.rspValid := rfl
@[simp] theorem State.delayUs_pins (n : Nat) : (s.delayUs n).pins = s.pins := rfl
@[simp] theorem State.delayUs_trace (n : Nat) : (s.delayUs n).trace = s.trace ++ [.delayUs n] := rfl
@[simp] theorem State.delayUs_cmds (n : Nat) : (s.delayUs n).cmds = s.cmds := rfl
@[simp] theorem State.delayUs_env (n : Nat) : (s.delayUs n).env = { s.env with micros := s.env.micros + BitVec.ofNat 32 n } := rfl

/-! ### fbWrite -/
@[simp] theorem State.fbWrite_cfg (b : Byte) : (s.fbWrite b).cfg = s.cfg := rfl
@[simp] theorem State.fbWrite_role (b : Byte) : (s.fbWrite b).role = s.role := rfl
@[simp] theorem State.fbWrite_devState (b : Byte) : (s.fbWrite b).devState = s.devState := rfl
@[simp] theorem State.fbWrite_phase (b : Byte) : (s.fbWrite b).phase = s.phase := rfl
@[simp] theorem State.fbWrite_baud (b : Byte) : (s.fbWrite b).baud = s.baud := rfl
@[simp] theorem State.fbWrite_bitUs (b : Byte) : (s.fbWrite b).bitUs = s.bitUs := rfl
@[simp] theorem State.fbWrite_linVersion (b : Byte) : (s.fbWrite b).linVersion = s.linVersion := rfl
@[simp] theorem State.fbWrite_fb (b : Byte) : (s.fbWrite b).fb = (s.fb.write s.cfg.nFb b).2 := rfl
@[simp] theorem State.fbWrite_sp (b : Byte) : (s.fbWrite b).sp = s.sp := rfl
@[simp] theorem State.fbWrite_det (b : Byte) : (s.fbWrite b).det = s.det := rfl
@[simp] theorem State.fbWrite_scratch (b : Byte) : (s.fbWrite b).scratch = s.scratch := rfl
@[simp] theorem State.fbWrite_wdata (b : Byte) : (s.fbWrite b).wdata = s.wdata := rfl
@[simp] theorem State.fbWrite_rdata (b : Byte) : (s.fbWrite b).rdata = s.rdata := rfl
@[simp] theorem State.fbWrite_result (b : Byte) : (s.fbWrite b).result = s.result := rfl
@[simp] theorem State.fbWrite_rspValid (b : Byte) : (s.fbWrite b).rspValid = s.rspValid := rfl
@[simp] theorem State.fbWrite_pins (b : Byte) : (s.fbWrite b).pins = s.pins := rfl
@[simp] theorem State.fbWrite_trace (b : Byte) : (s.fbWrite b).trace = s.trace := rfl
@[simp] theorem State.fbWrite_cmds (b : Byte) : (s.fbWrite b).cmds = s.cmds := rfl
@[simp] theorem State.fbWrite_env (b : Byte) : (s.fbWrite b).env = s.env := rfl

/-! ### fbDrop -/
@[simp] theorem State.fbDrop_cfg : (s.fbDrop).cfg = s.cfg := rfl
@[simp] theorem State.fbDrop_role : (s.fbDrop).role = s.role := rfl
@[simp] theorem State.fbDrop_devState : (s.fbDrop).devState = s.devState := rfl
@[simp] theorem State.fbDrop_phase : (s.fbDrop).phase = s.phase := rfl
@[simp] theorem State.fbDrop_baud : (s.fbDrop).baud = s.baud := rfl
@[simp] theorem State.fbDrop_bitUs : (s.fbDrop).bitUs = s.bitUs := rfl
@[simp] theorem State.fbDrop_linVersion : (s.fbDrop).linVersion = s.linVersion := rfl
@[simp] theorem State.fbDrop_fb : (s.fbDrop).fb = (s.fb.read s.cfg.nFb).2 := rfl
@[simp] theorem State.fbDrop_sp : (s.fbDrop).sp = s.sp := rfl
@[simp] theorem State.fbDrop_det : (s.fbDrop).det = s.det := rfl
@[simp] theorem State.fbDrop_scratch : (s.fbDrop).scratch = s.scratch := rfl
@[simp] theorem State.fbDrop_wdata : (s.fbDrop).wdata = s.wdata := rfl
@[simp] theorem State.fbDrop_rdata : (s.fbDrop).rdata = s.rdata := rfl
@[simp] theorem State.fbDrop_result : (s.fbDrop).result = s.result := rfl
@[simp] theorem State.fbDrop_rspValid : (s.fbDrop).rspValid = s.rspValid := rfl
@[simp] theorem State.fbDrop_pins : (s.fbDrop).pins = s.pins := rfl
@[simp] theorem State.fbDrop_trace : (s.fbDrop).trace = s.trace := rfl
@[simp] theorem State.fbDrop_cmds : (s.fbDrop).cmds = s.cmds := rfl
@[simp] theorem State.fbDrop_env : (s.fbDrop).env = s.env := rfl

/-! ### spPush -/
@[simp] theorem State.spPush_cfg (b : Byte) : (s.spPush b).cfg = s.cfg := rfl
@[simp] theorem State.spPush_role (b : Byte) : (s.spPush b).role = s.role := rfl
@[simp] theorem State.spPush_devState (b : Byte) : (s.spPush b).devState = s.devState := rfl
@[simp] theorem State.spPush_phase (b : Byte) : (s.spPush b).phase = s.phase := rfl
@[simp] theorem State.spPush_baud (b : Byte) : (s.spPush b).baud = s.baud := rfl
@[simp] theorem State.spPush_bitUs (b : Byte) : (s.spPush b).bitUs = s.bitUs := rfl
@[simp] theorem State.spPush_linVersion (b : Byte) : (s.spPush b).linVersion = s.linVersion := rfl
@[simp] theorem State.spPush_fb (b : Byte) : (s.spPush b).fb = s.fb := rfl
@[simp] theorem State.spPush_sp (b : Byte) : (s.spPush b).sp = (s.sp.write Config.nSp b).2 := rfl
@[simp] theorem State.spPush_det (b : Byte) : (s.spPush b).det = s.det := rfl
@[simp] theorem State.spPush_scratch (b : Byte) : (s.spPush b).scratch = s.scratch := rfl
@[simp] theorem State.spPush_wdata (b : Byte) : (s.spPush b).wdata = s.wdata := rfl
@[simp] theorem State.spPush_rdata (b : Byte) : (s.spPush b).rdata = s.rdata := rfl
@[simp] theorem State.spPush_result (b : Byte) : (s.spPush b).result = s.result := rfl
@[simp] theorem State.spPush_rspValid (b : Byte) : (s.spPush b).rspValid = s.rspValid := rfl
@[simp] theorem State.spPush_pins (b : Byte) : (s.spPush b).pins = s.pins := rfl
@[simp] theorem State.spPush_trace (b : Byte) : (s.spPush b).trace = s.trace := rfl
@[simp] theorem State.spPush_cmds (b : Byte) : (s.spPush b).cmds = s.cmds := rfl
@[simp] theorem State.spPush_env (b : Byte) : (s.spPush b).env = s.env := rfl

/-! ### spDrop -/
@[simp] theorem State.spDrop_cfg : (s.spDrop).cfg = s.cfg := rfl
@[simp] theorem State.spDrop_role : (s.spDrop).role = s.role := rfl
@[simp] theorem State.spDrop_devState : (s.spDrop).devState = s.devState := rfl
@[simp] theorem State.spDrop_phase : (s.spDrop).phase = s.phase := rfl
@[simp] theorem State.spDrop_baud : (s.spDrop).baud = s.baud := rfl
@[simp] theorem State.spDrop_bitUs : (s.spDrop).bitUs = s.bitUs := rfl
@[simp] theorem State.spDrop_linVersion : (s.spDrop).linVersion = s.linVersion := rfl
@[simp] theorem State.spDrop_fb : (s.spDrop).fb = s.fb := rfl
@[simp] theorem State.spDrop_sp : (s.spDrop).sp = (s.sp.read Config.nSp).2 := rfl
@[simp] theorem State.spDrop_det : (s.spDrop).det = s.det := rfl
@[simp] theorem State.spDrop_scratch : (s.spDrop).scratch = s.scratch := rfl
@[simp] theorem State.spDrop_wdata : (s.spDrop).wdata = s.wdata := rfl
@[simp] theorem State.spDrop_rdata : (s.spDrop).rdata = s.rdata := rfl
@[simp] theorem State.spDrop_result : (s.spDrop).result = s.result := rfl
@[simp] theorem State.spDrop_rspValid : (s.spDrop).rspValid = s.rspValid := rfl
@[simp] theorem State.spDrop_pins : (s.spDrop).pins = s.pins := rfl
@[simp] theorem State.spDrop_trace : (s.spDrop).trace = s.trace := rfl
@[simp] theorem State.spDrop_cmds : (s.spDrop).cmds = s.cmds := rfl
@[simp] theorem State.spDrop_env : (s.spDrop).env = s.env := rfl

/-! ### setDet -/
@[simp] theorem State.setDet_cfg (d : Detector) : (s.setDet d).cfg = s.cfg := rfl
@[simp] theorem State.setDet_role (d : Detector) : (s.setDet d).role = s.role := rfl
@[simp] theorem State.setDet_devState (d : Detector) : (s.setDet d).devState = s.devState := rfl
@[simp] theorem State.setDet_phase (d : Detector) : (s.setDet d).phase = s.phase := rfl
@[simp] theorem State.setDet_baud (d : Detector) : (s.setDet d).baud = s.baud := rfl
@[simp] theorem State.setDet_bitUs (d : Detector) : (s.setDet d).bitUs = s.bitUs := rfl
@[simp] theorem State.setDet_linVersion (d : Detector) : (s.setDet d).linVersion = s.linVersion := rfl
@[simp] theorem State.setDet_fb (d : Detector) : (s.setDet d).fb = s.fb := rfl
@[simp] theorem State.setDet_sp (d : Detector) : (s.setDet d).sp = s.sp := rfl
@[simp] theorem State.setDet_det (d : Detector) : (s.setDet d).det = d := rfl
@[simp] theorem State.setDet_scratch (d : Detector) : (s.setDet d).scratch = s.scratch := rfl
@[simp] theorem State.setDet_wdata (d : Detector) : (s.setDet d).wdata = s.wdata := rfl
@[simp] theorem State.setDet_rdata (d : Detector) : (s.setDet d).rdata = s.rdata := rfl
@[simp] theorem State.setDet_result (d : Detector) : (s.setDet d).result = s.result := rfl
@[simp] theorem State.setDet_rspValid (d : Detector) : (s.setDet d).rspValid = s.rspValid := rfl
@[simp] theorem State.setDet_pins (d : Detector) : (s.setDet d).pins = s.pins := rfl
@[simp] theorem State.setDet_trace (d : Detector) : (s.setDet d).trace = s.trace := rfl
@[simp] theorem State.setDet_cmds (d : Detector) : (s.setDet d).cmds = s.cmds := rfl
@[simp] theorem State.setDet_env (d : Detector) : (s.setDet d).env = s.env := rfl

/-! ### setDev -/
@[simp] theorem State.setDev_cfg (d : DevState) : (s.setDev d).cfg = s.cfg := rfl
@[simp] theorem State.setDev_role (d : DevState) : (s.setDev d).role = s.role := rfl
@[simp] theorem State.setDev_devState (d : DevState) : (s.setDev d).devState = d := rfl
@[simp] theorem State.setDev_phase (d : DevState) : (s.setDev d).phase = s.phase := rfl
@[simp] theorem State.setDev_baud (d : DevState) : (s.setDev d).baud = s.baud := rfl
@[simp] theorem State.setDev_bitUs (d : DevState) : (s.setDev d).bitUs = s.bitUs := rfl
@[simp] theorem State.setDev_linVersion (d : DevState) : (s.setDev d).linVersion = s.linVersion := rfl
@[simp] theorem State.setDev_fb (d : DevState) : (s.setDev d).fb = s.fb := rfl
@[simp] theorem State.setDev_sp (d : DevState) : (s.setDev d).sp = s.sp := rfl
@[simp] theorem State.setDev_det (d : DevState) : (s.setDev d).det = s.det := rfl
@[simp] theorem State.setDev_scratch (d : DevState) : (s.setDev d).scratch = s.scratch := rfl
@[simp] theorem State.setDev_wdata (d : DevState) : (s.setDev d).wdata = s.wdata := rfl
@[simp] theorem State.setDev_rdata (d : DevState) : (s.setDev d).rdata = s.rdata := rfl
@[simp] theorem State.setDev_result (d : DevState) : (s.setDev d).result = s.result := rfl
@[simp] theorem State.setDev_rspValid (d : DevState) : (s.setDev d).rspValid = s.rspValid := rfl
@[simp] theorem State.setDev_pins (d : DevState) : (s.setDev d).pins = s.pins := rfl
@[simp] theorem State.setDev_trace (d : DevState) : (s.setDev d).trace = s.trace := rfl
@[simp] theorem State.setDev_cmds (d : DevState) : (s.setDev d).cmds = s.cmds := rfl
@[simp] theorem State.setDev_env (d : DevState) : (s.setDev d).env = s.env := rfl

/-! ### finish -/
@[simp] theorem State.finish_cfg (r : Result) : (s.finish r).cfg = s.cfg := rfl
@[simp] theorem State.finish_role (r : Result) : (s.finish r).role = s.role := rfl
@[simp] theorem State.finish_devState (r : Result) : (s.finish r).devState = s.devState := rfl
@[simp] theorem State.finish_phase (r : Result) : (s.finish r).phase = .idle := rfl
@[simp] theorem State.finish_baud (r : Result) : (s.finish r).baud = s.baud := rfl
@[simp] theorem State.finish_bitUs (r : Result) : (s.finish r).bitUs = s.bitUs := rfl
@[simp] theorem State.finish_linVersion (r : Result) : (s.finish r).linVersion = s.linVersion := rfl
@[simp] theorem State.finish_fb (r : Result) : (s.finish r).fb = s.fb := rfl
@[simp] theorem State.finish_sp (r : Result) : (s.finish r).sp = s.sp := rfl
@[simp] theorem State.finish_det (r : Result) : (s.finish r).det = s.det := rfl
@[simp] theorem State.finish_scratch (r : Result) : (s.finish r).scratch = s.scratch := rfl
@[simp] theorem State.finish_wdata (r : Result) : (s.finish r).wdata = s.wdata := rfl
@[simp] theorem State.finish_rdata (r : Result) : (s.finish r).rdata = s.rdata := rfl
@[simp] theorem State.finish_result (r : Result) : (s.finish r).result = r := rfl
@[simp] theorem State.finish_rspValid (r : Result) : (s.finish r).rspValid = true := rfl
@[simp] theorem State.finish_pins (r : Result) : (s.finish r).pins = s.pins := rfl
@[simp] theorem State.finish_trace (r : Result) : (s.finish r).trace = s.trace := rfl
@[simp] theorem State.finish_cmds (r : Result) : (s.finish r).cmds = s.cmds := rfl
@[simp] theorem State.finish_env (r : Result) : (s.finish r).env = s.env := rfl

/-! ### raise -/
@[simp] theorem State.raise_cfg (k : ErrorKind) : (s.raise k).cfg = s.cfg := rfl
@[simp] theorem State.raise_role (k : ErrorKind) : (s.raise k).role = s.role := rfl
@[simp] theorem State.raise_devState (k : ErrorKind) : (s.raise k).devState = s.devState := rfl
@[simp] theorem State.raise_phase (k : ErrorKind) : (s.raise k).phase = .idle := rfl
@[simp] theorem State.raise_baud (k : ErrorKind) : (s.raise k).baud = s.baud := rfl
@[simp] theorem State.raise_bitUs (k : ErrorKind) : (s.raise k).bitUs = s.bitUs := rfl
@[simp] theorem State.raise_linVersion (k : ErrorKind) : (s.raise k).linVersion = s.linVersion := rfl
@[simp] theorem State.raise_fb (k : ErrorKind) : (s.raise k).fb = s.fb := rfl
@[simp] theorem State.raise_sp (k : ErrorKind) : (s.raise k).sp = s.sp := rfl
@[simp] theorem State.raise_det (k : ErrorKind) : (s.raise k).det = s.det := rfl
@[simp] theorem State.raise_scratch (k : ErrorKind) : (s.raise k).scratch = s.scratch := rfl
@[simp] theorem State.raise_wdata (k : ErrorKind) : (s.raise k).wdata = s.wdata := rfl
@[simp] theorem State.raise_rdata (k : ErrorKind) : (s.raise k).rdata = s.rdata := rfl
@[simp] theorem State.raise_result (k : ErrorKind) : (s.raise k).result = BitVec.ofInt 16 k.code := rfl
@[simp] theorem State.raise_rspValid (k : ErrorKind) : (s.raise k).rspValid = true := rfl
@[simp] theorem State.raise_pins (k : ErrorKind) : (s.raise k).pins = s.pins := rfl
@[simp] theorem State.raise_trace (k : ErrorKind) : (s.raise k).trace = s.trace := rfl
@[simp] theorem State.raise_cmds (k : ErrorKind) : (s.raise k).cmds = s.cmds := rfl
@[simp] theorem State.raise_env (k : ErrorKind) : (s.raise k).env = s.env := rfl

/-! ### accept -/
@[simp] theorem State.accept_cfg (c : Command) (rest : List Command) : (s.accept c rest).cfg = s.cfg := rfl
@[simp] theorem State.accept_role (c : Command) (rest : List Command) : (s.accept c rest).role = s.role := rfl
@[simp] theorem State.accept_devState (c : Command) (rest : List Command) : (s.accept c rest).devState = s.devState := rfl
@[simp] theorem State.accept_phase (c : Command) (rest : List Command) : (s.accept c rest).phase = s.phase := rfl
@[simp] theorem State.accept_baud (c : Command) (rest : List Command) : (s.accept c rest).baud = s.baud := rfl
@[simp] theorem State.accept_bitUs (c : Command) (rest : List Command) : (s.accept c rest).bitUs = s.bitUs := rfl
@[simp] theorem State.accept_linVersion (c : Command) (rest : List Command) : (s.accept c rest).linVersion = s.linVersion := rfl
@[simp] theorem State.accept_fb (c : Command) (rest : List Command) : (s.accept c rest).fb = s.fb := rfl
@[simp] theorem State.accept_sp (c : Command) (rest : List Command) : (s.accept c rest).sp = s.sp := rfl
@[simp] theorem State.accept_det (c : Command) (rest : List Command) : (s.accept c rest).det = s.det := rfl
@[simp] theorem State.accept_scratch (c : Command) (rest : List Command) : (s.accept c rest).scratch = s.scratch := rfl
@[simp] theorem State.accept_wdata (c : Command) (rest : List Command) : (s.accept c rest).wdata = c.wdata := rfl
@[simp] theorem State.accept_rdata (c : Command) (rest : List Command) : (s.accept c rest).rdata = s.rdata := rfl
@[simp] theorem State.accept_result (c : Command) (rest : List Command) : (s.accept c rest).result = s.result := rfl
@[simp] theorem State.accept_rspValid (c : Command) (rest : List Command) : (s.accept c rest).rspValid = false := rfl
@[simp] theorem State.accept_pins (c : Command) (rest : List Command) : (s.accept c rest).pins = s.pins := rfl
@[simp] theorem State.accept_trace (c : Command) (rest : List Command) : (s.accept c rest).trace = s.trace := rfl
@[simp] theorem State.accept_cmds (c : Command) (rest : List Command) : (s.accept c rest).cmds = rest := rfl
@[simp] theorem State.accept_env (c : Command) (rest : List Command) : (s.accept c rest).env = s.env := rfl

/-! ### setLink -/
@[simp] theorem State.setLink_cfg (r : BitVec 20) (h : Bool) : (s.setLink r h).cfg = s.cfg := rfl
@[simp] theorem State.setLink_role (r : BitVec 20) (h : Bool) : (s.setLink r h).role = if h then .host else .node := rfl
@[simp] theorem State.setLink_devState (r : BitVec 20) (h : Bool) : (s.setLink r h).devState = s.devState := rfl
@[simp] theorem State.setLink_phase (r : BitVec 20) (h : Bool) : (s.setLink r h).phase = s.phase := rfl
@[simp] theorem State.setLink_baud (r : BitVec 20) (h : Bool) : (s.setLink r h).baud = r := rfl
@[simp] theorem State.setLink_bitUs (r : BitVec 20) (h : Bool) : (s.setLink r h).bitUs = bitPeriod r := rfl
@[simp] theorem State.setLink_linVersion (r : BitVec 20) (h : Bool) : (s.setLink r h).linVersion = s.linVersion := rfl
@[simp] theorem State.setLink_fb (r : BitVec 20) (h : Bool) : (s.setLink r h).fb = s.fb := rfl
@[simp] theorem State.setLink_sp (r : BitVec 20) (h : Bool) : (s.setLink r h).sp = s.sp := rfl
@[simp] theorem State.setLink_det (r : BitVec 20) (h : Bool) : (s.setLink r h).det = s.det := rfl
@[simp] theorem State.setLink_scratch (r : BitVec 20) (h : Bool) : (s.setLink r h).scratch = s.scratch := rfl
@[simp] theorem State.setLink_wdata (r : BitVec 20) (h : Bool) : (s.setLink r h).wdata = s.wdata := rfl
@[simp] theorem State.setLink_rdata (r : BitVec 20) (h : Bool) : (s.setLink r h).rdata = s.rdata := rfl
@[simp] theorem State.setLink_result (r : BitVec 20) (h : Bool) : (s.setLink r h).result = s.result := rfl
@[simp] theorem State.setLink_rspValid (r : BitVec 20) (h : Bool) : (s.setLink r h).rspValid = s.rspValid := rfl
@[simp] theorem State.setLink_pins (r : BitVec 20) (h : Bool) : (s.setLink r h).pins = s.pins := rfl
@[simp] theorem State.setLink_trace (r : BitVec 20) (h : Bool) : (s.setLink r h).trace = s.trace := rfl
@[simp] theorem State.setLink_cmds (r : BitVec 20) (h : Bool) : (s.setLink r h).cmds = s.cmds := rfl
@[simp] theorem State.setLink_env (r : BitVec 20) (h : Bool) : (s.setLink r h).env = s.env := rfl

/-! ### clearReception -/
@[simp] theorem State.clearReception_cfg : (s.clearReception).cfg = s.cfg := rfl
@[simp] theorem State.clearReception_role : (s.clearReception).role = s.role := rfl
@[simp] theorem State.clearReception_devState : (s.clearReception).devState = s.devState := rfl
@[simp] theorem State.clearReception_phase : (s.clearReception).phase = s.phase := rfl
@[simp] theorem State.clearReception_baud : (s.clearReception).baud = s.baud := rfl
@[simp] theorem State.clearReception_bitUs : (s.clearReception).bitUs = s.bitUs := rfl
@[simp] theorem State.clearReception_linVersion : (s.clearReception).linVersion = s.linVersion := rfl
@[simp] theorem State.clearReception_fb : (s.clearReception).fb = s.fb.clear := rfl
@[simp] theorem State.clearReception_sp : (s.clearReception).sp = s.sp.clear := rfl
@[simp] theorem State.clearReception_det : (s.clearReception).det = Detector.cleared := rfl
@[simp] theorem State.clearReception_scratch : (s.clearReception).scratch = s.scratch := rfl
@[simp] theorem State.clearReception_wdata : (s.clearReception).wdata = s.wdata := rfl
@[simp] theorem State.clearReception_rdata : (s.clearReception).rdata = s.rdata := rfl
@[simp] theorem State.clearReception_result : (s.clearReception).result = s.result := rfl
@[simp] theorem State.clearReception_rspValid : (s.clearReception).rspValid = s.rspValid := rfl
@[simp] theorem State.clearReception_pins : (s.clearReception).pins = s.pins := rfl
@[simp] theorem State.clearReception_trace : (s.clearReception).trace = s.trace := rfl
@[simp] theorem State.clearReception_cmds : (s.clearReception).cmds = s.cmds := rfl
@[simp] theorem State.clearReception_env : (s.clearReception).env = s.env := rfl

/-! ### endPulse -/
@[simp] theorem State.endPulse_cfg : (s.endPulse).cfg = s.cfg := rfl
@[simp] theorem State.endPulse_role : (s.endPulse).role = s.role := rfl
@[simp] theorem State.endPulse_devState : (s.endPulse).devState = s.devState := rfl
@[simp] theorem State.endPulse_phase : (s.endPulse).phase = s.phase := rfl
@[simp] theorem State.endPulse_baud : (s.endPulse).baud = s.baud := rfl
@[simp] theorem State.endPulse_bitUs : (s.endPulse).bitUs = s.bitUs := rfl
@[simp] theorem State.endPulse_linVersion : (s.endPulse).linVersion = s.linVersion := rfl
@[simp] theorem State.endPulse_fb : (s.endPulse).fb = s.fb := rfl
@[simp] theorem State.endPulse_sp : (s.endPulse).sp = s.sp := rfl
@[simp] theorem State.endPulse_det : (s.endPulse).det = s.det := rfl
@[simp] theorem State.endPulse_scratch : (s.endPulse).scratch = s.scratch := rfl
@[simp] theorem State.endPulse_wdata : (s.endPulse).wdata = s.wdata := rfl
@[simp] theorem State.endPulse_rdata : (s.endPulse).rdata = s.rdata := rfl
@[simp] theorem State.endPulse_result : (s.endPulse).result = s.result := rfl
@[simp] theorem State.endPulse_rspValid : (s.endPulse).rspValid = false := rfl
@[simp] theorem State.endPulse_pins : (s.endPulse).pins = s.pins := rfl
@[simp] theorem State.endPulse_trace : (s.endPulse).trace = s.trace := rfl
@[simp] theorem State.endPulse_cmds : (s.endPulse).cmds = s.cmds := rfl
@[simp] theorem State.endPulse_env : (s.endPulse).env = s.env := rfl

end Sys2Proof.Machine
end

