-- ==== Sys2Proof/Laws/Ops.lean ====
section
/-! SUPPORT. What the environment's moves, the gate, the banks and the payload loops can do, said once. -/

namespace Sys2Proof.Machine

/-! ### The environment -/

/-- The bytes the environment's next move appends. -/
def Env.arriving (e : Env) : List Byte :=
  match e.moves with
  | [] => []
  | m :: _ => m.arrive

/-- The bytes the environment's next `k` moves append. -/
def Env.arrivals : Nat → Env → List Byte
  | 0, _ => []
  | k + 1, e => e.arriving ++ Env.arrivals k e.advance

theorem Env.advance_rxQueue (e : Env) : e.advance.rxQueue = e.rxQueue ++ e.arriving := by
  unfold Env.advance Env.arriving; split <;> simp_all

@[simp] theorem Env.advance_txPending (e : Env) : e.advance.txPending = e.txPending := by
  unfold Env.advance; split <;> rfl

theorem Env.advance_moves (e : Env) : e.advance.moves = e.moves.tail := by
  unfold Env.advance; split <;> simp_all

/-- Moves do not look at the queue. -/
theorem Env.advance_setQueue (e : Env) (q : List Byte) :
    Env.advance { e with rxQueue := q } = { e.advance with rxQueue := q ++ e.arriving } := by
  rcases e with ⟨rx, tx, l, u, m, _ | ⟨mv, ms⟩⟩ <;> simp [Env.advance, Env.arriving]

theorem Env.iterate_advance_rxQueue (k : Nat) (e : Env) :
    (Env.advance^[k] e).rxQueue = e.rxQueue ++ Env.arrivals k e := by
  induction k generalizing e with
  | zero => simp [Env.arrivals]
  | succ k ih => rw [Function.iterate_succ_apply, ih, Env.advance_rxQueue, Env.arrivals, List.append_assoc]

theorem Env.iterate_advance_setQueue (k : Nat) (e : Env) (q : List Byte) :
    Env.advance^[k] { e with rxQueue := q } = { Env.advance^[k] e with rxQueue := q ++ Env.arrivals k e } := by
  induction k generalizing e q with
  | zero => simp [Env.arrivals]
  | succ k ih =>
    rw [Function.iterate_succ_apply, Function.iterate_succ_apply, Env.advance_setQueue, ih, Env.arrivals,
      List.append_assoc]

/-- The supply of bytes is what is queued and what will be delivered: a move does not change it. -/
theorem Env.advance_supply (e : Env) : e.advance.supply = e.supply := by
  unfold Env.supply Env.advance
  split
  · simp
  · simp_all; omega

theorem keepBy_nil (ks : List Bool) : keepBy ks [] = [] := by cases ks <;> simp [keepBy]

/-- Stopping, restarting or starting the peripheral leaves nothing to send if nothing was handed over (R307). -/
theorem Env.peripheral_nothingPending {e : Env} (h : e.txPending = []) : e.peripheral.txPending = [] := by
  unfold Env.peripheral; split <;> simp [h, keepBy_nil]

/-- What the peripheral does to the queues does not depend on the microsecond clock. -/
theorem Env.peripheral_setMicros (e : Env) (t : Time) :
    ∃ t', Env.peripheral { e with micros := t } = { e.peripheral with micros := t' } := by
  rcases e with ⟨rx, tx, l, u, m, _ | ⟨mv, ms⟩⟩ <;> exact ⟨_, rfl⟩

/-! ### The collaborator that may have no answer -/

theorem State.serialRead_cons {s : State} {b : Byte} {q : List Byte} (h : s.env.rxQueue = b :: q) :
    s.serialRead = some (b, (s.withEnv { s.env with rxQueue := q }).emit (.serialRead b)) := by
  simp [State.serialRead, h]

theorem State.serialRead_nil {s : State} (h : s.env.rxQueue = []) : s.serialRead = none := by
  simp [State.serialRead, h]

/-! ### The gate and the outcomes -/

theorem State.afterBegin_begun {s : State} (h : s.devState ≠ .powerOnReset) (k : Out) : s.afterBegin k = k := by
  simp [State.afterBegin, h]

theorem State.afterBegin_reset {s : State} (h : s.devState = .powerOnReset) (k : Out) :
    s.afterBegin k = .refused .beforeBegin := by
  simp [State.afterBegin, h]

/-- The gate answers a next state only after BEGIN, and then the operation's own (R262). -/
theorem State.afterBegin_next {s t : State} {u : State} :
    s.afterBegin (.next u) = .next t ↔ s.devState ≠ .powerOnReset ∧ u = t := by
  unfold State.afterBegin; split <;> simp_all

/-! ### Banks -/

@[simp] theorem overlay_toList {n : Nat} (l : List Byte) (v : Vector Byte n) :
    (overlay l v).toList = (l ++ v.toList.drop l.length).take n := by
  simp [overlay, Vector.toList]

/-- The bytes of an overlaid bank: the new ones first, the old ones after. -/
theorem overlay_getElem {n : Nat} (l : List Byte) (v : Vector Byte n) (i : Nat) (hi : i < n) :
    (overlay l v)[i] = if h : i < l.length then l[i] else v[i] := by
  simp only [overlay, Vector.getElem_mk, List.getElem_toArray, List.getElem_take, List.getElem_append]
  split
  · rfl
  · rename_i h
    simp only [List.getElem_drop, Vector.getElem_toList]
    congr 1; omega

/-- The stores at reset are canonical, whatever the draw. -/
theorem State.resetWith_memory_wf (c : Config) (d : ResetDraw) :
    (State.resetWith c d).fb.mem.wf = true ∧ (State.resetWith c d).sp.mem.wf = true :=
  ⟨Memory.ofBytes_wf _ _, Memory.ofBytes_wf _ _⟩

/-- The stores at reset list no address outside their capacity. -/
theorem State.resetWith_memory_addr (c : Config) (d : ResetDraw) :
    (∀ p ∈ (State.resetWith c d).fb.mem, p.1 < c.nFb) ∧ ∀ p ∈ (State.resetWith c d).sp.mem, p.1 < Config.nSp := by
  constructor <;> intro p hp
  · have := (Memory.mem_ofBytes hp).2.1
    rw [List.length_take] at this; omega
  · have := (Memory.mem_ofBytes hp).2.1
    rw [List.length_take] at this; omega

/-- Each byte of `FB.mem` at reset is the draw's. -/
theorem State.resetWith_fb_read (c : Config) (d : ResetDraw) (i : Nat) (hi : i < c.nFb) (h : i < 256) :
    (State.resetWith c d).fb.mem.read i = d.fbStore[i] := by
  have := Memory.read_ofBytes 0 i (d.fbStore.toList.take c.nFb) (by simpa using ⟨hi, h⟩)
  simpa [State.resetWith] using this

/-- Each byte of `SP.mem` at reset is the draw's. -/
theorem State.resetWith_sp_read (c : Config) (d : ResetDraw) (i : Nat) (h : i < 8) :
    (State.resetWith c d).sp.mem.read i = d.spStore[i] := by
  have := Memory.read_ofBytes 0 i (d.spStore.toList.take Config.nSp) (by simpa [Config.nSp] using h)
  simpa [State.resetWith] using this

theorem State.reset_memory_wf : State.reset.fb.mem.wf = true ∧ State.reset.sp.mem.wf = true :=
  State.resetWith_memory_wf _ _

end Sys2Proof.Machine
end

