-- ==== Sys2Proof/Laws/PerInstr.lean ====
section
/-! SUPPORT. Statements about every operation as syntax, one lemma per constructor (30_encoding.md R93). -/

namespace Sys2Proof.Laws.EncodedInItsRow

/-- The command word of an operation is selected by the operation's row of the opcode map: `w & mask == match` (R93). -/
def Statement (i : Instr) : Prop := rowSelects (rowOf i).1 (rowOf i).2 (encode i) = true

/-- A row selects a word whose masked fields are those of the pattern. -/
theorem of_fields {pattern mask : Word} {op len : BitVec 4} {nul flg : BitVec 1} {arg : BitVec 20} (o l : BitVec 4)
    (n f : BitVec 1) (r : BitVec 2) (a : BitVec 20) (hm : mask = maskWord o l n f r a)
    (hp : pattern = cmdWord (op &&& o) (len &&& l) (nul &&& n) (flg &&& f) (arg &&& a)) :
    rowSelects pattern mask (cmdWord op len nul flg arg) = true := by
  rw [rowSelects, decide_eq_true_eq, hm, hp, cmdWord_and]

/-- The masked part of a byte's `ARG` is zero. -/
theorem argOfByte_masked (b : Byte) : argOfByte b &&& 0xFFF00#20 = 0#20 := by revert b; decide

theorem beginOp (baud : BitVec 20) (isHost : Bool) : Statement (.beginOp baud isHost) :=
  of_fields 15 15 1 0 3 0 rfl (by simp; rfl)

theorem sleep (force : Bool) : Statement (.sleep force) :=
  of_fields 15 15 1 0 3 0xFFFFF rfl (by simp; rfl)

theorem wake : Statement .wake := by unfold Statement; decide

theorem available : Statement .available := by unfold Statement; decide

theorem dataAvailable : Statement .dataAvailable := by unfold Statement; decide

theorem waitForData (size : Byte) : Statement (.waitForData size) :=
  of_fields 15 15 1 1 3 0xFFF00 rfl (by simp [argOfByte_masked]; rfl)

theorem readId : Statement .readId := by unfold Statement; decide

theorem readData (buf : Buf) (len : BitVec 4) : Statement (.readData buf len) :=
  of_fields 15 0 0 1 3 0xFFFFF rfl (by simp; rfl)

theorem writeHeader (id : Byte) : Statement (.writeHeader id) :=
  of_fields 15 15 1 1 3 0xFFF00 rfl (by simp [argOfByte_masked]; rfl)

theorem writeData (buf : Buf) (len : BitVec 4) : Statement (.writeData buf len) :=
  of_fields 15 0 0 1 3 0xFFFFF rfl (by simp; rfl)

theorem calcChecksum (buf : Buf) (len : BitVec 4) (seed : Option Byte) : Statement (.calcChecksum buf len seed) := by
  cases seed with
  | none => exact of_fields 15 0 0 0 3 0xFFF00 rfl (by simp; rfl)
  | some b => exact of_fields 15 0 0 0 3 0xFFF00 rfl (by simp [argOfByte_masked]; rfl)

theorem calcIdParity (id : Byte) : Statement (.calcIdParity id) :=
  of_fields 15 15 1 1 3 0xFFF00 rfl (by simp [argOfByte_masked]; rfl)

theorem dataLengthCode (pid : Byte) : Statement (.dataLengthCode pid) :=
  of_fields 15 15 1 1 3 0xFFF00 rfl (by simp [argOfByte_masked]; rfl)

theorem linVersion (write : Option Byte) : Statement (.linVersion write) := by
  cases write with
  | none => unfold Statement; decide
  | some v => exact of_fields 15 15 1 0 3 0xFFF00 rfl (by simp [argOfByte_masked]; rfl)

end Sys2Proof.Laws.EncodedInItsRow
end

