-- ==== Sys2Proof/Laws/Poll.lean ====
section
/-! SUPPORT. Everything a poll can do (41_detector.md R141 to R144): one lemma for each of its steps, and the frame of the whole. -/

namespace Sys2Proof.Machine

/-- `t` has every field of `s` but those a poll writes: `FB`, `SP`, the detection state, the trace, the environment (R140). -/
structure State.PollFrame (s t : State) : Prop where
  cfg : t.cfg = s.cfg
  role : t.role = s.role
  devState : t.devState = s.devState
  phase : t.phase = s.phase
  baud : t.baud = s.baud
  bitUs : t.bitUs = s.bitUs
  linVersion : t.linVersion = s.linVersion
  scratch : t.scratch = s.scratch
  wdata : t.wdata = s.wdata
  rdata : t.rdata = s.rdata
  result : t.result = s.result
  rspValid : t.rspValid = s.rspValid
  pins : t.pins = s.pins
  cmds : t.cmds = s.cmds

theorem State.PollFrame.refl (s : State) : s.PollFrame s := by constructor <;> rfl

theorem State.PollFrame.trans {s t u : State} (a : s.PollFrame t) (b : t.PollFrame u) : s.PollFrame u where
  cfg := b.cfg.trans a.cfg
  role := b.role.trans a.role
  devState := b.devState.trans a.devState
  phase := b.phase.trans a.phase
  baud := b.baud.trans a.baud
  bitUs := b.bitUs.trans a.bitUs
  linVersion := b.linVersion.trans a.linVersion
  scratch := b.scratch.trans a.scratch
  wdata := b.wdata.trans a.wdata
  rdata := b.rdata.trans a.rdata
  result := b.result.trans a.result
  rspValid := b.rspValid.trans a.rspValid
  pins := b.pins.trans a.pins
  cmds := b.cmds.trans a.cmds

/-! ### Steps 1 and 2 -/

/-- No change of the level: one sample, nothing else (R141). -/
theorem State.edge_same {s : State} (h : s.env.advance.rxLevel = s.det.lastLevel) : s.edge = s.gpioReadRx.2 := by
  simp [State.edge, h]

/-- A change of the level: two samples, and the detection state follows the level and the one reading (R141). -/
theorem State.edge_change {s : State} (h : s.env.advance.rxLevel ≠ s.det.lastLevel) :
    s.edge = (s.gpioReadRx.2.readMicros.2).setDet
      (s.det.levelChanged (s.bits breakMinBits) s.env.advance.rxLevel s.env.advance.advance.micros) := by
  simp [State.edge, h]

/-- What a level change leaves in each field (R141, R142). -/
theorem Detector.levelChanged_eq (threshold : Nat) (lvl : Level) (now : Time) (d : Detector) :
    d.levelChanged threshold lvl now =
      { lastLevel := lvl
        lastActivity := now
        breakStart := if lvl = .low then now else d.breakStart
        breakStartValid := d.breakStartValid || decide (lvl = .low)
        breakConfirmed := d.breakConfirmed ||
          (decide (lvl = .high) && d.breakStartValid && decide (elapsed d.breakStart now > threshold))
        breakCount := d.breakCount } := by
  rcases d with ⟨_, _, _, _ | _, _, _⟩ <;> cases lvl <;> simp [Detector.levelChanged, Detector.confirmIfLong]
  split <;> simp_all

theorem State.edge_pollFrame (s : State) : s.PollFrame s.edge := by
  by_cases h : s.env.advance.rxLevel = s.det.lastLevel
  · rw [State.edge_same h]; constructor <;> simp
  · rw [State.edge_change h]; constructor <;> simp

theorem State.edge_buffers (s : State) : s.edge.fb = s.fb ∧ s.edge.sp = s.sp := by
  by_cases h : s.env.advance.rxLevel = s.det.lastLevel
  · simp [State.edge_same h]
  · simp [State.edge_change h]

theorem State.edge_txPending (s : State) : s.edge.env.txPending = s.env.txPending := by
  by_cases h : s.env.advance.rxLevel = s.det.lastLevel
  · simp [State.edge_same h]
  · simp [State.edge_change h]

theorem State.edge_env (s : State) : s.edge.env =
    if s.env.advance.rxLevel ≠ s.det.lastLevel then s.env.advance.advance else s.env.advance := by
  by_cases h : s.env.advance.rxLevel = s.det.lastLevel
  · simp [State.edge_same h, h]
  · simp [State.edge_change h, h]

theorem State.edge_trace (s : State) : s.edge.trace = s.trace ++ (.gpioRead .rx s.env.advance.rxLevel ::
    (if s.env.advance.rxLevel ≠ s.det.lastLevel then [.micros s.env.advance.advance.micros] else [])) := by
  by_cases h : s.env.advance.rxLevel = s.det.lastLevel
  · simp [State.edge_same h, h]
  · simp [State.edge_change h, h]

theorem State.edge_det (s : State) : s.edge.det = if s.env.advance.rxLevel ≠ s.det.lastLevel then
    s.det.levelChanged (s.bits breakMinBits) s.env.advance.rxLevel s.env.advance.advance.micros else s.det := by
  by_cases h : s.env.advance.rxLevel = s.det.lastLevel
  · simp [State.edge_same h, h]
  · simp [State.edge_change h, h]

/-! ### Step 3 -/

/-- One turn of the drain that finds a byte. -/
def State.drainTurn (b : Byte) (q : List Byte) (s : State) : State :=
  (((s.serialCount.2).withEnv { s.env.advance with rxQueue := q }).emit (.serialRead b)).fbWrite b

theorem State.drainLoop_empty {s : State} (fuel : Nat) (h : s.env.advance.rxQueue = []) :
    s.drainLoop (fuel + 1) = s.serialCount.2 := by
  simp [State.drainLoop, h]

theorem State.drainLoop_cons {s : State} (fuel : Nat) {b : Byte} {q : List Byte} (h : s.env.advance.rxQueue = b :: q) :
    s.drainLoop (fuel + 1) = (s.drainTurn b q).drainLoop fuel := by
  have hr : s.serialCount.2.serialRead = some (b, _) :=
    State.serialRead_cons (s := s.serialCount.2) (q := q) (by simpa using h)
  simp [State.drainLoop, h, hr, State.drainTurn]

/-- Induct on the turns of a drain: it stops on an empty queue, or takes one byte and goes on. -/
theorem State.drainLoop_induct {P : Nat → State → State → Prop} (h0 : ∀ s, P 0 s s)
    (hstop : ∀ fuel s, s.env.advance.rxQueue = [] → P (fuel + 1) s s.serialCount.2)
    (hturn : ∀ fuel s b q t, s.env.advance.rxQueue = b :: q → P fuel (s.drainTurn b q) t → P (fuel + 1) s t)
    (fuel : Nat) (s : State) : P fuel s (s.drainLoop fuel) := by
  induction fuel generalizing s with
  | zero => exact h0 s
  | succ fuel ih =>
    cases hc : s.env.advance.rxQueue with
    | nil => rw [State.drainLoop_empty fuel hc]; exact hstop fuel s hc
    | cons b q => rw [State.drainLoop_cons fuel hc]; exact hturn fuel s b q _ hc (ih _)

theorem State.drainTurn_pollFrame (s : State) (b : Byte) (q : List Byte) : s.PollFrame (s.drainTurn b q) := by
  constructor <;> simp [State.drainTurn]

theorem State.drain_pollFrame (s : State) : s.PollFrame s.drain :=
  State.drainLoop_induct (P := fun _ s t => s.PollFrame t) State.PollFrame.refl
    (fun _ _ _ => by constructor <;> simp)
    (fun _ _ _ _ _ _ h => (State.drainTurn_pollFrame _ _ _).trans h) _ _

/-- A drain leaves the markers, the detection state and the unsent bytes alone. -/
theorem State.drain_unchanged (s : State) :
    s.drain.sp = s.sp ∧ s.drain.det = s.det ∧ s.drain.env.txPending = s.env.txPending :=
  State.drainLoop_induct (P := fun _ s t => t.sp = s.sp ∧ t.det = s.det ∧ t.env.txPending = s.env.txPending)
    (fun _ => ⟨rfl, rfl, rfl⟩) (fun _ _ _ => by simp)
    (fun _ s b q t _ h => by simpa [State.drainTurn] using h) _ _

/-- The calls of a drain that takes `m` bytes, from the environment `e` (R143): before byte `j` the length of the queue
without the `j` bytes taken, then that byte; at last the empty queue. -/
def drainEvents (m : Nat) (e : Env) : List Event :=
  ((List.range m).flatMap fun j => [.serialCount ((Env.advance^[j + 1] e).rxQueue.length - j),
    .serialRead ((Env.advance^[m + 1] e).rxQueue.getD j 0)]) ++ [.serialCount 0]

/-- Taking the oldest byte takes it off the front of every later queue (R50). -/
theorem Env.iterate_advance_taken {e : Env} {b : Byte} {q : List Byte} (h : e.advance.rxQueue = b :: q) (k : Nat) :
    (Env.advance^[k + 1] e).rxQueue = b :: (Env.advance^[k] { e.advance with rxQueue := q }).rxQueue := by
  rw [Function.iterate_succ_apply, Env.iterate_advance_rxQueue, Env.iterate_advance_setQueue, h, List.cons_append]

theorem drainEvents_succ {e : Env} {b : Byte} {q : List Byte} (h : e.advance.rxQueue = b :: q) (m : Nat) :
    drainEvents (m + 1) e =
      .serialCount (q.length + 1) :: .serialRead b :: drainEvents m { e.advance with rxQueue := q } := by
  simp only [drainEvents, List.range_succ_eq_map, List.flatMap_cons, List.flatMap_map, Env.iterate_advance_taken h,
    Nat.succ_eq_add_one, List.getD_cons_zero, List.getD_cons_succ, List.length_cons, Nat.add_sub_add_right]
  simp

/-- Everything the drain does (R143, R68): for some `m` it takes the `m` bytes that are queued or arrive while it runs,
in arrival order, and the queue is empty after its `m + 1` moves of the environment and not before; `FB` gains as much
of them as there is room for. -/
theorem State.drainLoop_spec (fuel : Nat) (s : State) (hf : s.env.supply < fuel) (hw : s.fb.wf s.cfg.nFb = true) :
    ∃ m, (s.drainLoop fuel).trace = s.trace ++ drainEvents m s.env ∧
      (∀ j < m, j < (Env.advance^[j + 1] s.env).rxQueue.length) ∧ (Env.advance^[m + 1] s.env).rxQueue.length = m ∧
      (s.drainLoop fuel).env = { Env.advance^[m + 1] s.env with rxQueue := [] } ∧
      (s.drainLoop fuel).fb.wf s.cfg.nFb = true ∧
      (s.drainLoop fuel).fb.content s.cfg.nFb =
        (s.fb.content s.cfg.nFb ++ (Env.advance^[m + 1] s.env).rxQueue).take s.cfg.nFb := by
  revert hf hw
  refine State.drainLoop_induct (P := fun fuel s t => s.env.supply < fuel → s.fb.wf s.cfg.nFb = true →
    ∃ m, t.trace = s.trace ++ drainEvents m s.env ∧
      (∀ j < m, j < (Env.advance^[j + 1] s.env).rxQueue.length) ∧ (Env.advance^[m + 1] s.env).rxQueue.length = m ∧
      t.env = { Env.advance^[m + 1] s.env with rxQueue := [] } ∧ t.fb.wf s.cfg.nFb = true ∧
      t.fb.content s.cfg.nFb =
        (s.fb.content s.cfg.nFb ++ (Env.advance^[m + 1] s.env).rxQueue).take s.cfg.nFb) ?_ ?_ ?_ fuel s
  · intro s h; omega
  · intro fuel s hc _ hw
    have hl : (s.fb.content s.cfg.nFb).length ≤ s.cfg.nFb := by simpa using ((Ring.wf_iff _ _).1 hw).2.2.1
    refine ⟨0, by simp [hc, drainEvents], by simp, by simp [hc], ?_, hw, ?_⟩
    · rw [State.serialCount_env, Nat.zero_add, Function.iterate_one, ← hc]
    · simp [hc, List.take_of_length_le hl]
  · intro fuel s b q t hc ih hf hw
    have he : (s.drainTurn b q).env = { s.env.advance with rxQueue := q } := by simp [State.drainTurn]
    have hcfg : (s.drainTurn b q).cfg = s.cfg := by simp [State.drainTurn]
    have hfb : (s.drainTurn b q).fb = (s.fb.write s.cfg.nFb b).2 := by simp [State.drainTurn]
    have htr' : (s.drainTurn b q).trace = s.trace ++ [.serialCount (q.length + 1), .serialRead b] := by
      simp [State.drainTurn, hc]
    have hsup : (s.drainTurn b q).env.supply < fuel := by
      have h1 := Env.advance_supply s.env
      simp only [Env.supply, hc, List.length_cons] at h1 hf
      simp only [he, Env.supply]
      omega
    obtain ⟨m, htr, hmore, hlen, henv, hwf, hcont⟩ := ih hsup (by rw [hcfg, hfb]; exact Ring.write_wf hw b)
    rw [he] at htr hmore hlen henv hcont
    rw [hcfg, hfb, Ring.write_content hw] at hcont
    rw [hcfg] at hwf
    have htaken := Env.iterate_advance_taken hc
    refine ⟨m + 1, ?_, ?_, ?_, ?_, hwf, ?_⟩
    · rw [htr, htr', drainEvents_succ hc]; simp
    · intro j hj
      cases j with
      | zero => rw [htaken]; simp
      | succ j => rw [htaken]; simpa using hmore j (by omega)
    · rw [htaken, List.length_cons, hlen]
    · rw [henv, Env.iterate_advance_setQueue, Function.iterate_succ_apply (n := m + 1)]
    · rw [hcont, htaken]
      split
      · rename_i hfull
        have hl : (s.fb.content s.cfg.nFb).length = s.cfg.nFb := by simpa using hfull
        rw [List.take_append_of_le_length (by omega), List.take_append_of_le_length (by omega)]
      · rw [List.append_assoc, List.singleton_append]

/-- Step 3 of a poll, said once (R143). -/
theorem State.drain_spec (s : State) (hw : s.fb.wf s.cfg.nFb = true) :
    ∃ m, s.drain.trace = s.trace ++ drainEvents m s.env ∧
      (∀ j < m, j < (Env.advance^[j + 1] s.env).rxQueue.length) ∧ (Env.advance^[m + 1] s.env).rxQueue.length = m ∧
      s.drain.env = { Env.advance^[m + 1] s.env with rxQueue := [] } ∧ s.drain.fb.wf s.cfg.nFb = true ∧
      s.drain.fb.content s.cfg.nFb =
        (s.fb.content s.cfg.nFb ++ (Env.advance^[m + 1] s.env).rxQueue).take s.cfg.nFb :=
  State.drainLoop_spec _ s (Nat.lt_succ_self _) hw

/-- Where the drain stores (R62, R143): `FB` keeps its head, the accepted bytes go to the tail and the indices after it, and
no other byte of the store changes. -/
theorem State.drain_store (s : State) (hw : s.fb.wf s.cfg.nFb = true) :
    s.drain.fb.head = s.fb.head ∧ s.fb.len ≤ s.drain.fb.len ∧
      s.drain.fb.tail = (s.fb.tail + (s.drain.fb.len - s.fb.len)) % s.cfg.nFb ∧
      ∀ a, (∀ i < s.drain.fb.len - s.fb.len, a ≠ (s.fb.tail + i) % s.cfg.nFb) →
        s.drain.fb.mem.read a = s.fb.mem.read a := by
  revert hw
  refine State.drainLoop_induct (P := fun _ s t => s.fb.wf s.cfg.nFb = true →
    t.fb.head = s.fb.head ∧ s.fb.len ≤ t.fb.len ∧ t.fb.tail = (s.fb.tail + (t.fb.len - s.fb.len)) % s.cfg.nFb ∧
      ∀ a, (∀ i < t.fb.len - s.fb.len, a ≠ (s.fb.tail + i) % s.cfg.nFb) → t.fb.mem.read a = s.fb.mem.read a)
    ?_ ?_ ?_ _ s
  · intro s hw
    simp [Nat.mod_eq_of_lt ((Ring.wf_iff _ _).1 hw).2.1]
  · intro _ s _ hw
    simp [Nat.mod_eq_of_lt ((Ring.wf_iff _ _).1 hw).2.1]
  · intro _ s b q t _ ih hw
    have hcfg : (s.drainTurn b q).cfg = s.cfg := by simp [State.drainTurn]
    have hfb : (s.drainTurn b q).fb = (s.fb.write s.cfg.nFb b).2 := by simp [State.drainTurn]
    rw [hcfg, hfb] at ih
    obtain ⟨h1, h2, h3, h4⟩ := ih (Ring.write_wf hw b)
    by_cases hl : s.fb.len = s.cfg.nFb
    · rw [Ring.write_full hl] at h1 h2 h3 h4; exact ⟨h1, h2, h3, h4⟩
    · rw [Ring.write_room hl] at h1 h2 h3 h4
      simp only [Nat.mod_add_mod] at h1 h2 h3 h4
      obtain ⟨-, ht, -, -, hm, -⟩ := (Ring.wf_iff _ _).1 hw
      refine ⟨h1, by omega, by rw [h3]; congr 1; omega, fun a ha => ?_⟩
      rw [h4 a fun i hi => by have := ha (i + 1) (by omega); rwa [Nat.add_assoc, Nat.add_comm 1 i],
        Memory.read_write ((Memory.wf_iff _).1 hm).1, if_neg]
      have := ha 0 (by omega)
      rwa [Nat.add_zero, Nat.mod_eq_of_lt ht] at this

/-- A drain of an empty queue that nothing joins asks once and changes nothing (R143). -/
theorem State.drain_nothing {s : State} (h : s.env.advance.rxQueue = []) : s.drain = s.serialCount.2 :=
  State.drainLoop_empty _ h

/-! ### Step 4 -/

/-- A confirmed break with a zero at the head: consumed, pushed, cleared, counted (R144). -/
theorem State.matchRemnant_match {s : State} (h : s.det.breakConfirmed = true ∧ s.fb.peek = some 0) :
    s.matchRemnant = (s.fbDrop.spPush (BitVec.ofNat 8 s.fb.tail)).setDet
      { s.det with breakConfirmed := false, breakCount := s.det.breakCount + 1 } := by
  rw [State.matchRemnant, if_pos h, State.fbDrop_fb, Ring.read_tail]

/-- Otherwise the match changes nothing (R144, D14, D15). -/
theorem State.matchRemnant_skip {s : State} (h : ¬ (s.det.breakConfirmed = true ∧ s.fb.peek = some 0)) :
    s.matchRemnant = s := by
  rw [State.matchRemnant, if_neg h]

theorem State.matchRemnant_pollFrame (s : State) : s.PollFrame s.matchRemnant := by
  by_cases h : s.det.breakConfirmed = true ∧ s.fb.peek = some 0
  · rw [State.matchRemnant_match h]; constructor <;> simp
  · rw [State.matchRemnant_skip h]; exact .refl s

/-- The match makes no call. -/
theorem State.matchRemnant_outside (s : State) : s.matchRemnant.trace = s.trace ∧ s.matchRemnant.env = s.env := by
  by_cases h : s.det.breakConfirmed = true ∧ s.fb.peek = some 0
  · simp [State.matchRemnant_match h]
  · simp [State.matchRemnant_skip h]

/-! ### The whole poll -/

/-- The fields a poll leaves alone (R140). -/
theorem State.poll_frame (s : State) : s.PollFrame s.poll :=
  (s.edge_pollFrame.trans s.edge.drain_pollFrame).trans s.edge.drain.matchRemnant_pollFrame

theorem State.poll_txPending (s : State) : s.poll.env.txPending = s.env.txPending := by
  rw [State.poll, (State.matchRemnant_outside _).2, (State.drain_unchanged _).2.2, State.edge_txPending]

/-- The fields the body of AVAILABLE leaves alone, in either role (R140, R146). -/
theorem State.availableBody_frame (s : State) : s.PollFrame s.availableBody.2 := by
  unfold State.availableBody
  split
  · constructor <;> simp
  · exact s.poll_frame

theorem State.availableBody_txPending (s : State) : s.availableBody.2.env.txPending = s.env.txPending := by
  unfold State.availableBody
  split
  · simp
  · exact s.poll_txPending

/-- A poll keeps both buffers as R60 says, in either role. -/
theorem State.availableBody_buffers {s : State} (hfb : s.fb.wf s.cfg.nFb = true) (hsp : s.sp.wf Config.nSp = true) :
    s.availableBody.2.fb.wf s.cfg.nFb = true ∧ s.availableBody.2.sp.wf Config.nSp = true := by
  unfold State.availableBody
  split
  · simp [hfb, hsp]
  · have ef := s.edge_pollFrame
    obtain ⟨e1, e2⟩ := s.edge_buffers
    obtain ⟨_, _, _, _, _, hwf, _⟩ := State.drain_spec s.edge (by rw [ef.cfg, e1]; exact hfb)
    have hcfg := (ef.trans s.edge.drain_pollFrame).cfg
    rw [ef.cfg] at hwf
    have hs : s.edge.drain.sp.wf Config.nSp = true := by rw [(State.drain_unchanged _).1, e2]; exact hsp
    rw [State.poll]
    by_cases hm : s.edge.drain.det.breakConfirmed = true ∧ s.edge.drain.fb.peek = some 0
    · rw [State.matchRemnant_match hm]
      exact ⟨by simpa [hcfg] using Ring.read_wf hwf, by simpa using Ring.write_wf hs _⟩
    · rw [State.matchRemnant_skip hm]; exact ⟨hwf, hs⟩

end Sys2Proof.Machine
end

