-- ==== Sys2Proof/Laws/Transmit.lean ====
section
/-! SUPPORT. Everything a transmission can do (44_host_transmit.md R190, R195, 46_device_state.md R236): the events it appends, the pins it leaves, and that nothing else changes. -/

namespace Sys2Proof.Machine

/-- `t` has every field of `s` but those a transmission writes: the trace, the pins, the environment. -/
structure State.SendFrame (s t : State) : Prop where
  cfg : t.cfg = s.cfg
  role : t.role = s.role
  devState : t.devState = s.devState
  phase : t.phase = s.phase
  baud : t.baud = s.baud
  bitUs : t.bitUs = s.bitUs
  linVersion : t.linVersion = s.linVersion
  fb : t.fb = s.fb
  sp : t.sp = s.sp
  det : t.det = s.det
  scratch : t.scratch = s.scratch
  wdata : t.wdata = s.wdata
  rdata : t.rdata = s.rdata
  result : t.result = s.result
  rspValid : t.rspValid = s.rspValid
  cmds : t.cmds = s.cmds

theorem State.SendFrame.refl (s : State) : s.SendFrame s := by constructor <;> rfl

theorem State.SendFrame.trans {s t u : State} (a : s.SendFrame t) (b : t.SendFrame u) : s.SendFrame u where
  cfg := b.cfg.trans a.cfg
  role := b.role.trans a.role
  devState := b.devState.trans a.devState
  phase := b.phase.trans a.phase
  baud := b.baud.trans a.baud
  bitUs := b.bitUs.trans a.bitUs
  linVersion := b.linVersion.trans a.linVersion
  fb := b.fb.trans a.fb
  sp := b.sp.trans a.sp
  det := b.det.trans a.det
  scratch := b.scratch.trans a.scratch
  wdata := b.wdata.trans a.wdata
  rdata := b.rdata.trans a.rdata
  result := b.result.trans a.result
  rspValid := b.rspValid.trans a.rspValid
  cmds := b.cmds.trans a.cmds

/-! ### The header -/

/-- The events of a header (R190 steps 2 to 10). -/
def headerEvents (bitUs : Nat) (id : Byte) : List Event :=
  [.serialTxStop, .gpioWrite .tx .low, .delayUs (breakBits * bitUs), .gpioWrite .tx .high, .delayUs (delimBits * bitUs),
   .serialRestart, .serialWrite syncByte, .serialWrite (protectedId id), .serialFlush]

theorem State.sendHeader_frame (id : Byte) (s : State) : s.SendFrame (s.sendHeader id) := by
  constructor <;> simp [State.sendHeader]

theorem State.sendHeader_trace (id : Byte) (s : State) :
    (s.sendHeader id).trace = s.trace ++ headerEvents s.bitUs.toNat id := by
  simp [State.sendHeader, State.bits, headerEvents]

theorem State.sendHeader_pins (id : Byte) (s : State) :
    (s.sendHeader id).pins = { s.pins with txLevel := .high, txOwner := .serial } := by
  simp [State.sendHeader]

/-- A header moves the environment once at the stop and once at the restart; its delays move only `Micros` (log 6, log 9). -/
theorem State.sendHeader_env (id : Byte) (s : State) : (s.sendHeader id).env =
    { s.env.peripheral.peripheral with txPending := [], micros := (s.sendHeader id).env.micros } := by
  obtain ⟨t, h⟩ := Env.peripheral_setMicros s.env.peripheral
    (s.env.peripheral.micros + BitVec.ofNat 32 (s.bits breakBits) + BitVec.ofNat 32 (s.bits delimBits))
  simp only [State.bits] at h
  simp [State.sendHeader, State.bits, h]

theorem State.sendHeader_txPending (id : Byte) (s : State) : (s.sendHeader id).env.txPending = [] := by
  simp [State.sendHeader]

/-! ### The payload -/

/-- The events of a payload (R195 steps 3 to 5). -/
def payloadEvents (bitUs : Nat) (data : List Byte) : List Event :=
  (data.flatMap fun b => [Event.serialWrite b, Event.delayUs (spaceBits * bitUs)]) ++
    [.serialWrite (checksum data data.length none), .serialFlush]

theorem State.sendBytes_frame (data : List Byte) (s : State) : s.SendFrame (data.foldl State.sendByte s) := by
  induction data generalizing s with
  | nil => exact .refl s
  | cons b data ih => exact State.SendFrame.trans (by constructor <;> simp [State.sendByte]) (ih _)

theorem State.sendBytes_trace (data : List Byte) (s : State) : (data.foldl State.sendByte s).trace =
    s.trace ++ data.flatMap fun b => [Event.serialWrite b, Event.delayUs (spaceBits * s.bitUs.toNat)] := by
  induction data generalizing s with
  | nil => simp
  | cons b data ih => rw [List.foldl_cons, ih]; simp [State.sendByte, State.bits]

theorem State.sendBytes_pins (data : List Byte) (s : State) : (data.foldl State.sendByte s).pins = s.pins := by
  induction data generalizing s with
  | nil => rfl
  | cons b data ih => rw [List.foldl_cons, ih]; simp [State.sendByte]

theorem State.sendPayload_frame (data : List Byte) (s : State) : s.SendFrame (s.sendPayload data) :=
  (State.sendBytes_frame data s).trans (by constructor <;> simp [State.sendPayload])

theorem State.sendPayload_trace (data : List Byte) (s : State) :
    (s.sendPayload data).trace = s.trace ++ payloadEvents s.bitUs.toNat data := by
  simp [State.sendPayload, State.sendBytes_trace, payloadEvents]

theorem State.sendPayload_pins (data : List Byte) (s : State) : (s.sendPayload data).pins = s.pins := by
  simp [State.sendPayload, State.sendBytes_pins]

/-- The bytes of a payload touch nothing of the environment but what is unsent and `Micros` (log 6, log 9). -/
theorem State.sendBytes_env (data : List Byte) (s : State) : ∃ q t, (data.foldl State.sendByte s).env =
    { s.env with txPending := q, micros := t } := by
  induction data generalizing s with
  | nil => exact ⟨_, _, rfl⟩
  | cons b data ih =>
    obtain ⟨q, t, h⟩ := ih (s.sendByte b)
    exact ⟨q, t, by rw [List.foldl_cons, h]; simp [State.sendByte]⟩

/-- A payload leaves nothing unsent and touches nothing else of the environment but `Micros`. -/
theorem State.sendPayload_env (data : List Byte) (s : State) : (s.sendPayload data).env =
    { s.env with txPending := [], micros := (s.sendPayload data).env.micros } := by
  obtain ⟨q, t, h⟩ := State.sendBytes_env data s
  simp [State.sendPayload, h]

theorem State.sendPayload_txPending (data : List Byte) (s : State) : (s.sendPayload data).env.txPending = [] := by
  simp [State.sendPayload]

/-! ### The sleep command frame -/

theorem State.sendSleepFrame_frame (s : State) : s.SendFrame s.sendSleepFrame :=
  (s.sendHeader_frame sleepId).trans (State.sendPayload_frame _ _)

theorem State.sendSleepFrame_trace (s : State) : s.sendSleepFrame.trace =
    s.trace ++ (headerEvents s.bitUs.toNat sleepId ++ payloadEvents s.bitUs.toNat (Config.sleepPayload s.cfg)) := by
  rw [State.sendSleepFrame, State.sendPayload_trace, State.sendHeader_trace, (s.sendHeader_frame sleepId).bitUs,
    List.append_assoc]

theorem State.sendSleepFrame_pins (s : State) :
    s.sendSleepFrame.pins = { s.pins with txLevel := .high, txOwner := .serial } := by
  rw [State.sendSleepFrame, State.sendPayload_pins, State.sendHeader_pins]

theorem State.sendSleepFrame_env (s : State) : s.sendSleepFrame.env =
    { s.env.peripheral.peripheral with txPending := [], micros := s.sendSleepFrame.env.micros } := by
  rw [State.sendSleepFrame, State.sendPayload_env, State.sendHeader_env]

theorem State.sendSleepFrame_txPending (s : State) : s.sendSleepFrame.env.txPending = [] :=
  State.sendPayload_txPending _ _

/-! ### The set-up of BEGIN -/

/-- BEGIN steps 2 to 5 (R230): only the trace, the pins and the environment change. -/
theorem State.configure_frame (s : State) : s.SendFrame s.configure := by
  cases h : s.cfg.hasTx <;> constructor <;> simp [State.configure, h]

theorem State.configure_trace (s : State) : s.configure.trace = s.trace ++ ([.pinMode .rx .input, .pinMode .cs .output] ++
    (if s.cfg.hasTx then [.pinMode .tx .output] else []) ++ [.serialBegin s.baud]) := by
  cases h : s.cfg.hasTx <;> simp [State.configure, h]

theorem State.configure_pins (s : State) : s.configure.pins =
    { s.pins with modeRx := .input, modeCs := .output, modeTx := if s.cfg.hasTx then .output else s.pins.modeTx,
                  txOwner := .serial } := by
  cases h : s.cfg.hasTx <;> simp [State.configure, h]

theorem State.configure_env (s : State) : s.configure.env = s.env.peripheral := by
  cases h : s.cfg.hasTx <;> simp [State.configure, h]

end Sys2Proof.Machine
end

