-- ==== Sys2Proof/Laws/Wait.lean ====
section
/-! SUPPORT. The fields a poll does not read (41_detector.md R140), and everything one turn of WAIT_FOR_DATA can do (43_payload_codec.md R180, R181). -/

namespace Sys2Proof.Machine

/-! ### The fields that no poll reads -/

/-- Other values of five fields that no poll reads. -/
def State.around (cs : List Command) (v : Byte) (p : Phase) (r : Result) (b : Bool) (s : State) : State :=
  { s with cmds := cs, linVersion := v, phase := p, result := r, rspValid := b }

section
variable (cs : List Command) (v : Byte) (p : Phase) (r : Result) (b : Bool)

theorem State.around_self (s : State) : s.around s.cmds s.linVersion s.phase s.result s.rspValid = s := rfl

theorem State.edge_around (s : State) : (s.around cs v p r b).edge = s.edge.around cs v p r b := by
  by_cases h : s.env.advance.rxLevel = s.det.lastLevel
  · rw [State.edge_same h, State.edge_same (s := s.around cs v p r b) h]; rfl
  · rw [State.edge_change h, State.edge_change (s := s.around cs v p r b) h]; rfl

theorem State.drainLoop_around (n : Nat) (s : State) :
    (s.around cs v p r b).drainLoop n = (s.drainLoop n).around cs v p r b := by
  induction n generalizing s with
  | zero => rfl
  | succ n ih =>
    rcases h : s.env.advance.rxQueue with _ | ⟨x, q⟩
    · rw [State.drainLoop_empty n h, State.drainLoop_empty (s := s.around cs v p r b) n h]; rfl
    · rw [State.drainLoop_cons n h, State.drainLoop_cons (s := s.around cs v p r b) n h, ← ih]; rfl

theorem State.matchRemnant_around (s : State) :
    (s.around cs v p r b).matchRemnant = s.matchRemnant.around cs v p r b := by
  by_cases h : s.det.breakConfirmed = true ∧ s.fb.peek = some 0
  · rw [State.matchRemnant_match h, State.matchRemnant_match (s := s.around cs v p r b) h]; rfl
  · rw [State.matchRemnant_skip h, State.matchRemnant_skip (s := s.around cs v p r b) h]

theorem State.poll_around (s : State) : (s.around cs v p r b).poll = s.poll.around cs v p r b := by
  rw [State.poll, State.drain, State.edge_around, State.drainLoop_around, State.matchRemnant_around]; rfl

/-- A poll neither reads nor changes them, in either role (R140, R146). -/
theorem State.availableBody_around (s : State) : (s.around cs v p r b).availableBody =
    (s.availableBody.1, s.availableBody.2.around cs v p r b) := by
  have hr : (s.around cs v p r b).role = s.role := rfl
  cases h : s.role <;> simp only [State.availableBody, hr, h, State.poll_around] <;> rfl

end

/-! ### What a poll makes of the environment -/

theorem State.drainLoop_env (n : Nat) (s : State) :
    ∃ k q, (s.drainLoop n).env = { Env.advance^[k] s.env with rxQueue := q } := by
  refine State.drainLoop_induct (P := fun _ s t => ∃ k q, t.env = { Env.advance^[k] s.env with rxQueue := q })
    (fun s => ⟨0, s.env.rxQueue, rfl⟩) (fun _ s _ => ⟨1, s.env.advance.rxQueue, rfl⟩) ?_ n s
  rintro _ s x q t - ⟨k, q', h⟩
  have he : (s.drainTurn x q).env = { s.env.advance with rxQueue := q } := by simp [State.drainTurn]
  exact ⟨k + 1, q', by rw [h, he, Env.iterate_advance_setQueue, Function.iterate_succ_apply]⟩

theorem State.edge_iterate (s : State) : ∃ k, s.edge.env = Env.advance^[k] s.env := by
  rw [State.edge_env]; split
  · exact ⟨2, rfl⟩
  · exact ⟨1, rfl⟩

/-- A poll takes moves of the environment, in order, and bytes out of the queue; nothing else (R74, R143). -/
theorem State.availableBody_env (s : State) :
    ∃ k q, s.availableBody.2.env = { Env.advance^[k] s.env with rxQueue := q } := by
  unfold State.availableBody
  split
  · exact ⟨1, s.env.advance.rxQueue, rfl⟩
  · obtain ⟨k, hk⟩ := s.edge_iterate
    obtain ⟨j, q, hj⟩ := State.drainLoop_env (s.edge.env.supply + 1) s.edge
    refine ⟨j + k, q, ?_⟩
    rw [Function.iterate_add_apply, ← hk, ← hj, State.poll, (State.matchRemnant_outside _).2, State.drain]

/-! ### One turn of the wait -/

/-- Enough bytes: the wait ends with 1 (R180 step 3). -/
theorem State.waitTurn_enough {s : State} {size : Byte} (t0 : Time) (limit : Nat) (h : size.toNat + 1 ≤ s.fb.len) :
    s.waitTurn size t0 limit = s.finish 1 := by
  rw [State.waitTurn, if_pos h]

/-- Too late: the wait ends with 0 (R180 step 4). -/
theorem State.waitTurn_late {s : State} {size : Byte} {t0 : Time} {limit : Nat} (h : s.fb.len < size.toNat + 1)
    (ht : limit < elapsed t0 s.env.advance.millis) : s.waitTurn size t0 limit = s.readMillis.2.finish 0 := by
  rw [State.waitTurn, if_neg (by omega)]; exact if_pos ht

/-- Neither: one poll, and the wait goes on (R180 steps 5 and 6, R181). -/
theorem State.waitTurn_poll {s : State} {size : Byte} {t0 : Time} {limit : Nat} (h : s.fb.len < size.toNat + 1)
    (ht : ¬ limit < elapsed t0 s.env.advance.millis) : s.waitTurn size t0 limit =
      { s.readMillis.2.availableBody.2 with phase := .waitLoop size t0 limit } := by
  rw [State.waitTurn, if_neg (by omega)]; exact if_neg ht

/-- A turn ends the wait with 1, ends it with 0, or polls. -/
theorem State.waitTurn_cases (s : State) (size : Byte) (t0 : Time) (limit : Nat) :
    s.waitTurn size t0 limit = s.finish 1 ∨ s.waitTurn size t0 limit = s.readMillis.2.finish 0 ∨
      s.waitTurn size t0 limit = { s.readMillis.2.availableBody.2 with phase := .waitLoop size t0 limit } := by
  by_cases h : size.toNat + 1 ≤ s.fb.len
  · exact .inl (State.waitTurn_enough t0 limit h)
  · by_cases ht : limit < elapsed t0 s.env.advance.millis
    · exact .inr (.inl (State.waitTurn_late (by omega) ht))
    · exact .inr (.inr (State.waitTurn_poll (by omega) ht))

/-- A turn does not read the port or `lin_version`. -/
theorem State.waitTurn_around (cs : List Command) (v : Byte) (s : State) (size : Byte) (t0 : Time) (limit : Nat) :
    (s.around cs v s.phase s.result s.rspValid).waitTurn size t0 limit =
      { s.waitTurn size t0 limit with cmds := cs, linVersion := v } := by
  have hr : (s.around cs v s.phase s.result s.rspValid).readMillis.2 =
      s.readMillis.2.around cs v s.phase s.result s.rspValid := rfl
  by_cases h : size.toNat + 1 ≤ s.fb.len
  · rw [State.waitTurn_enough t0 limit h, State.waitTurn_enough (s := s.around cs v s.phase s.result s.rspValid) t0 limit h]; rfl
  · by_cases ht : limit < elapsed t0 s.env.advance.millis
    · rw [State.waitTurn_late (by omega) ht,
        State.waitTurn_late (s := s.around cs v s.phase s.result s.rspValid) (show s.fb.len < size.toNat + 1 by omega) ht]; rfl
    · rw [State.waitTurn_poll (by omega) ht,
        State.waitTurn_poll (s := s.around cs v s.phase s.result s.rspValid) (show s.fb.len < size.toNat + 1 by omega) ht, hr, State.availableBody_around]
      have f := s.readMillis.2.availableBody_frame
      ext1 <;> simp [State.around, f.result, f.rspValid]

end Sys2Proof.Machine
end

