-- ==== Sys2Proof/Tests/Slice0.lean ====
section
/-! SUPPORT. Tests of the model: the well-formedness smoke, written command words, at most two steps per operation with the values of 95_test_vectors.md, and for each statement a state that meets its hypotheses. -/

namespace Sys2Proof.Tests

open Sys2Proof.Machine

/-! ## Small states -/

/-- The sample instance at reset, one draw of the unspecified fields. -/
def start : State := State.resetWith Config.sample default

/-- The same without a TX line (R10). -/
def startNoTx : State := State.resetWith { Config.sample with hasTx := false } default

/-- After `BEGIN 19200, Node` (95, notation: `bit_us = 52`). -/
def node : State := start.initialise 19200 false

/-- After `BEGIN 19200, Host`. -/
def host : State := start.initialise 19200 true

/-- `s` with more bytes in `FB`. -/
def fill (l : List Byte) (s : State) : State := l.foldl (fun t b => t.fbWrite b) s

/-- `s` with the bytes `l` first in `WDATA`. -/
def wdata (l : List Byte) (s : State) : State := { s with wdata := overlay l s.wdata }

/-- A move: bytes arrive, the level, the microseconds and milliseconds that pass. -/
def move (arrive : List Byte) (level : Level) (us ms : Time) : EnvMove :=
  { arrive := arrive, level := level, addMicros := us, addMillis := ms, rxKeep := [], txKeep := [] }

/-- `s` with coming moves. -/
def moves (ms : List EnvMove) (s : State) : State := s.withEnv { s.env with moves := ms }

/-- `s` with commands at the port. -/
def port (ws : List Word) (s : State) : State := { s with cmds := ws.map fun w => { word := w, wdata := s.wdata } }

/-- `s` in a wait for `size + 1` bytes that began at 0, with limit 10 (R132 at 19200 baud). -/
def waiting (size : Byte) (s : State) : State := { s with phase := .waitLoop size 0 10 }

/-- A dominant pulse that began at 100 microseconds is under way (vectors of 95 section 2.6). -/
def dominant (s : State) : State :=
  s.setDet { s.det with lastLevel := .low, lastActivity := 100, breakStart := 100, breakStartValid := true }

/-- A field of the next state. -/
def get {α : Type} (f : State → α) : Out → Option α
  | .next t => some (f t)
  | .fault _ => none
  | .refused _ => none

/-- The refusal, if it is one. -/
def refusal : Out → Option Refusal
  | .next _ => none
  | .fault _ => none
  | .refused r => some r

/-- Everything after the first `n` events. -/
def since (s : State) (t : State) : List Event := t.trace.drop s.trace.length

/-- The bytes of `FB`. -/
def held (s : State) : List Byte := s.fb.content s.cfg.nFb

/-- The markers of `SP`. -/
def marks (s : State) : List Byte := s.sp.content Config.nSp

/-- The first `n` bytes of `RDATA`. -/
def rbytes (n : Nat) (s : State) : List Byte := s.rdata.toList.take n

/-! ## Well-formedness -/

theorem smoke_readData_long : (Instr.readData .bank 9).wellFormed = false ∧
    (Instr.readData .null 15).wellFormed = false ∧ (Instr.readData .bank 8).wellFormed = true := by decide

theorem smoke_writeData_long : (Instr.writeData .bank 9).wellFormed = false ∧
    (Instr.writeData .null 15).wellFormed = false ∧ (Instr.writeData .bank 8).wellFormed = true := by decide

/-! ## Command words, written out field by field (R91: `OP LEN NUL FLG RSV ARG`; 95 section 2.12) -/

theorem test_decode_begin : decode 0b0001_0000_0_1_00_00000100101100000000 = .ok (.beginOp 19200 true) := by decide
theorem test_decode_sleep : decode 0b0010_0000_0_1_00_00000000000000000000 = .ok (.sleep true) := by decide
theorem test_decode_wake : decode 0b0011_0000_0_0_00_00000000000000000000 = .ok .wake := by decide
theorem test_decode_available : decode 0b0100_0000_0_0_00_00000000000000000000 = .ok .available := by decide
theorem test_decode_dataAvailable : decode 0b0101_0000_0_0_00_00000000000000000000 = .ok .dataAvailable := by decide
theorem test_decode_waitForData : decode 0b0110_0000_0_0_00_00000000000000000010 = .ok (.waitForData 2) := by decide
theorem test_decode_readId : decode 0b0111_0000_0_0_00_00000000000000000000 = .ok .readId := by decide
theorem test_decode_readData : decode 0b1000_0010_0_0_00_00000000000000000000 = .ok (.readData .bank 2) := by decide
theorem test_decode_readData_null : decode 0b1000_0010_1_0_00_00000000000000000000 = .ok (.readData .null 2) := by decide
theorem test_decode_writeHeader : decode 0b1001_0000_0_0_00_00000000000000000001 = .ok (.writeHeader 1) := by decide
theorem test_decode_writeData : decode 0b1010_0010_0_0_00_00000000000000000000 = .ok (.writeData .bank 2) := by decide
theorem test_decode_calcChecksum : decode 0b1011_0010_0_1_00_00000000000011000001 =
    .ok (.calcChecksum .bank 2 (some 0xC1)) := by decide
theorem test_decode_calcIdParity : decode 0b1100_0000_0_0_00_00000000000000000001 = .ok (.calcIdParity 1) := by decide
theorem test_decode_dataLengthCode : decode 0b1101_0000_0_0_00_00000000000011000001 =
    .ok (.dataLengthCode 0xC1) := by decide
theorem test_decode_linVersion : decode 0b1110_0000_0_1_00_00000000000000010101 = .ok (.linVersion (some 21)) ∧
    decode 0b1110_0000_0_0_00_00000000000000000000 = .ok (.linVersion none) := by decide

/-- The reserved words of 95 section 2.12, each rejected by name. -/
theorem test_decode_reserved :
    decode 0x00000000 = .error .reservedOpcode ∧ decode 0xF0000000 = .error .reservedOpcode ∧
    decode 0x40100000 = .error .reservedBits ∧ decode 0x41000000 = .error .unusedField ∧
    decode 0x70000001 = .error .unusedField ∧ decode 0x89000000 = .error .lengthOutOfDomain ∧
    decode 0xB2000001 = .error .unusedField ∧ decode 0xE0000015 = .error .unusedField ∧
    decode 0x90000100 = .error .unusedField := by decide

theorem test_encode_words : encode (.beginOp 19200 true) = 0x10404B00 ∧ encode (.readData .null 2) = 0x82800000 ∧
    encode (.calcChecksum .bank 2 (some 0xC1)) = 0xB24000C1 ∧ encode (.linVersion (some 21)) = 0xE0400015 := by decide

theorem test_decodeTableWord : decodeTableWord 32 0x60000002 = some (.waitForData 2) ∧
    decodeTableWord 32 0 = none := by decide

/-- The port runs a placed word as the very next step (log 1). -/
theorem test_withFetchWord : get (·.result) (step (start.withFetchWord 32 0xC0000001)) = some 0x00C0 ∧
    refusal (step (start.withFetchWord 32 0x40000000)) = some .beforeBegin := by decide +kernel

/-! ## One step of each operation -/

/-- 95 section 2.11, first row. -/
theorem test_begin_node : get (since start) (exec (.beginOp 19200 false) start) = some
      [.pinMode .rx .input, .pinMode .cs .output, .pinMode .tx .output, .serialBegin 19200, .gpioWrite .cs .high] ∧
    get (fun t => (t.devState, t.role, t.bitUs, t.det.lastLevel, t.result)) (exec (.beginOp 19200 false) start) =
      some (.ready, .node, 52, .high, 0) := by decide +kernel

/-- 95 sections 2.4 and 2.11: a Host without TX, rate 0 and rate 1000001 are refused. -/
theorem test_begin_refused : refusal (exec (.beginOp 19200 true) startNoTx) = some .hostWithoutTx ∧
    refusal (exec (.beginOp 0 false) start) = some .baudOutOfDomain ∧
    refusal (exec (.beginOp 1000001 false) start) = some .baudOutOfDomain := by decide +kernel

/-- 95 program 3.4, command 7: the checksum of the sleep payload is 00, CS goes low last. -/
theorem test_sleep_host : get (fun t => ((since host t).length, (since host t).drop 25, t.devState, t.result))
    (exec (.sleep true) host) =
      some (28, [.serialWrite 0x00, .serialFlush, .gpioWrite .cs .low], .sleep, 0) := by decide +kernel

/-- 95 section 2.11: a Node ignores the flag. -/
theorem test_sleep_node : get (since node) (exec (.sleep true) node) = some [.gpioWrite .cs .low] := by decide +kernel

/-- 95 section 2.11: a Node with a TX line sends 80; a Host sends nothing. -/
theorem test_wake : get (since node) (exec .wake node) = some [.gpioWrite .cs .high, .serialWrite 0x80, .serialFlush] ∧
    get (since host) (exec .wake host) = some [.gpioWrite .cs .high] := by decide +kernel

/-- 95 section 2.6: 572 microseconds are no break; 573 are, confirmed and matched in the same poll. -/
theorem test_available_threshold :
    get (fun t => (held t, t.det.breakConfirmed, t.result))
      (exec .available (moves [move [0] .high 672 0] (dominant node))) = some ([0], false, 0) ∧
    get (fun t => (held t, marks t, t.det.breakConfirmed, t.result))
      (exec .available (moves [move [0] .high 673 0] (dominant node))) = some ([], [1], false, 1) := by decide +kernel

/-- 95 section 2.6: in the Host role the queue is counted and kept. -/
theorem test_available_host : get (fun t => (since host t, t.env.rxQueue, t.result))
    (exec .available (moves [move [1, 2, 3] .high 0 0] host)) = some ([.serialCount 3], [1, 2, 3], 3) := by
  decide +kernel

theorem test_dataAvailable : get (·.result) (exec .dataAvailable (fill [0x12, 0x34] node)) = some 2 := by decide +kernel

/-- 95 section 2.9: enough bytes on entry, one reading of the clock. -/
theorem test_wait_enough : get (fun t => ((since node t).length, t.result, t.busy))
    (exec (.waitForData 2) (fill [0xAA, 0xBB, 0x99] node)) = some (1, 1, false) := by decide +kernel

/-- 95 section 2.9: no timeout at 10 milliseconds, the limit; timeout at 11, across the wrap of the clock too. -/
theorem test_wait_limit :
    get (·.busy) (step (moves [move [] .high 0 10] (waiting 2 node))) = some true ∧
    get (fun t => (t.busy, t.result)) (step (moves [move [] .high 0 11] (waiting 2 node))) = some (false, 0) ∧
    elapsed 4294967290 5 = 11 := by decide +kernel

/-- 95 section 2.7: parity good, and parity wrong. -/
theorem test_readId_parity :
    get (fun t => (held t, t.det.breakCount, t.result)) (exec .readId (fill [0x55, 0xC1, 0xAA] node)) =
      some ([0xAA], 255, 1) ∧
    get (fun t => (held t, t.result)) (exec .readId (fill [0x55, 0x81, 0xAA] node)) = some ([0xAA], 0xFFFC) := by
  decide +kernel

/-- 95 section 2.7: a wrong first byte leaves the second and the marker; two bytes are not enough. -/
theorem test_readId_sync :
    get (fun t => (held t, marks t, t.result)) (exec .readId ((fill [0x54, 0xC1, 0xAA] node).spPush 7)) =
      some ([0xC1, 0xAA], [7], 0xFFFD) ∧
    get (fun t => (held t, t.result)) (exec .readId (fill [0x55, 0xC1] node)) = some ([0x55, 0xC1], 0xFFFF) := by
  decide +kernel

/-- 95 section 2.8: the bytes are copied; a wrong checksum consumes them and copies nothing. -/
theorem test_readData_checksum :
    get (fun t => (held t, rbytes 2 t, t.result)) (exec (.readData .bank 2) (fill [0xAA, 0xBB, 0x99, 0x55] node)) =
      some ([0x55], [0xAA, 0xBB], 2) ∧
    get (fun t => (held t, t.rdata, t.result)) (exec (.readData .bank 2) (fill [0xAA, 0xBB, 0x98] node)) =
      some ([], node.rdata, 0xFFFD) := by decide +kernel

/-- 95 section 2.8: null is tested before the length. -/
theorem test_readData_order :
    get (·.result) (exec (.readData .null 2) (fill [0xAA] node)) = some 0xFFFF ∧
    get (·.result) (exec (.readData .bank 2) (fill [0xAA, 0xBB] node)) = some 0xFFFE := by decide +kernel

/-- 95 section 2.10: `HDR(C1)` for the unmasked identifier 41. -/
theorem test_writeHeader_host : get (since host) (exec (.writeHeader 0x41) host) = some
    [.serialTxStop, .gpioWrite .tx .low, .delayUs 676, .gpioWrite .tx .high, .delayUs 104, .serialRestart,
     .serialWrite 0x55, .serialWrite 0xC1, .serialFlush] := by decide +kernel

theorem test_writeHeader_node : get (fun t => (since node t, t.result)) (exec (.writeHeader 1) node) =
    some ([], 0xFFFF) := by decide +kernel

/-- 95 section 2.10, `WRITE_DATA len 2`. -/
theorem test_writeData : get (fun t => (since host t, t.result)) (exec (.writeData .bank 2) (wdata [0xAA, 0xBB] host)) =
    some ([.serialWrite 0xAA, .delayUs 104, .serialWrite 0xBB, .delayUs 104, .serialWrite 0x99, .serialFlush], 2) := by
  decide +kernel

theorem test_writeData_null : get (fun t => (since host t, t.result)) (exec (.writeData .null 2) host) =
    some ([], 0xFFFF) := by decide +kernel

/-- 95 section 2.2: two carries; a seed; before BEGIN too. -/
theorem test_calcChecksum :
    get (·.result) (exec (.calcChecksum .bank 4 none) (wdata [0x4A, 0x55, 0x93, 0xE5] start)) = some 0x00E6 ∧
    get (·.result) (exec (.calcChecksum .bank 2 (some 0xC1)) (wdata [0xAA, 0xBB] start)) = some 0x00D7 := by
  decide +kernel

/-- 95 section 2.2: a length of 15 is capped at 8; null fails. -/
theorem test_calcChecksum_cap :
    get (·.result) (exec (.calcChecksum .bank 15 none) (wdata [1, 2, 3, 4, 5, 6, 7, 8] start)) = some 0x00DB ∧
    get (·.result) (exec (.calcChecksum .null 3 none) start) = some 0xFFFF := by decide +kernel

/-- 95 section 2.1: identifiers 2A and 3C; bits 6 and 7 are not read. -/
theorem test_calcIdParity : get (·.result) (exec (.calcIdParity 0x2A) start) = some 0x40 ∧
    get (·.result) (exec (.calcIdParity 0x3C) start) = some 0x00 ∧
    get (·.result) (exec (.calcIdParity 0xFF) start) = some 0x80 := by decide +kernel

/-- 95 section 2.3. -/
theorem test_dataLengthCode : get (·.result) (exec (.dataLengthCode 0x1F) start) = some 2 ∧
    get (·.result) (exec (.dataLengthCode 0xE2) start) = some 4 ∧
    get (·.result) (exec (.dataLengthCode 0xF0) start) = some 8 := by decide +kernel

/-- 95 section 2.11. -/
theorem test_linVersion : get (fun t => (t.linVersion, t.result)) (exec (.linVersion (some 21)) start) = some (21, 21) ∧
    get (·.result) (exec (.linVersion none) { start with linVersion := 21 }) = some 21 := by decide +kernel

/-- 10_state.md R39, R40: the bytes of `FB.mem` at reset are what the draw has, and BEGIN does not write them (R66). -/
theorem test_reset_store : get (fun t => (t.fb.mem.read 0, t.fb.mem.read 63, t.fb.mem.read 64, t.fb.len))
    (exec (.beginOp 19200 false) (State.resetWith Config.sample { (default : ResetDraw) with
      fbLen := 9, fbStore := Vector.replicate 256 0xAB })) = some (0xAB, 0xAB, 0, 0) := by decide +kernel

/-- 95 section 2.5: the ring of capacity 4 after step 7 is full with `head = tail`; the next write is rejected. -/
theorem test_ring : Ring.write 4 { mem := [(0, 0x55), (1, 0x22), (2, 0x33), (3, 0x44)], head := 1, tail := 1, len := 4 } 0x66 =
    (false, { mem := [(0, 0x55), (1, 0x22), (2, 0x33), (3, 0x44)], head := 1, tail := 1, len := 4 }) ∧
    Ring.content 4 { mem := [(0, 0x55), (1, 0x22), (2, 0x33), (3, 0x44)], head := 1, tail := 1, len := 4 } =
      [0x22, 0x33, 0x44, 0x55] := by decide

/-- 20_memory.md R70: byte `i` is bits `8i+7 .. 8i`; `WDATA = [AA BB]` is `0xBBAA` (95, notation). -/
theorem test_pack : Bank.pack #v[0xAA, 0xBB, 0, 0, 0, 0, 0, 0] = 0x000000000000BBAA := by decide

/-! ## For each statement, states and operands that meet its hypotheses -/

/-- The answer is a next state. -/
def isNext : Out → Bool
  | .next _ => true
  | .fault _ => false
  | .refused _ => false

theorem exists_next {o : Out} (h : isNext o = true) : ∃ t, o = .next t := by
  cases o with
  | next t => exact ⟨t, rfl⟩
  | fault r => cases h
  | refused r => cases h

theorem exists_next_with {α : Type} {f : State → α} {o : Out} {v : α} (h : get f o = some v) :
    ∃ t, o = .next t ∧ f t = v := by
  cases o with
  | next t => exact ⟨t, rfl, Option.some.inj h⟩
  | fault r => cases h
  | refused r => cases h

theorem exists_next_prop {P : State → Prop} [DecidablePred P] {o : Out} (h : get (fun t => decide (P t)) o = some true) :
    ∃ t, o = .next t ∧ P t := by
  obtain ⟨t, ht, hp⟩ := exists_next_with h
  exact ⟨t, ht, of_decide_eq_true hp⟩

/-- A ring of capacity 1, empty and full: the two ends of `len`. -/
def ringEmpty : Ring := { mem := [], head := 0, tail := 0, len := 0 }

/-- See `ringEmpty`. -/
def ringFull : Ring := { mem := [(0, 7)], head := 0, tail := 0, len := 1 }

theorem witness_DecodeUndoesEncode : (Instr.readData .bank 8).wellFormed = true ∧
    (Instr.calcChecksum .null 15 (some 0xFF)).wellFormed = true := by decide

theorem witness_DecodedWordIsTheEncoding : decode 0x88800000 = .ok (.readData .null 8) := by decide

/-- Both sides hold, and a word of the row that breaks the constraint, where both fail. -/
theorem witness_DecodeFollowsTheOpcodeMap :
    (decode 0xA8000000 = .ok (.writeData .bank 8) ∧ 0xA8000000 &&& (rowOf (.writeData .bank 8)).2 = 0xA0000000) ∧
    (decode 0xA9000000 = .error .lengthOutOfDomain ∧ 0xA9000000 &&& (rowOf (.writeData .bank 8)).2 = 0xA0000000) := by
  decide

/-- One word for each way to be reserved. -/
theorem witness_ReservedWordsAreRefused :
    (reservedWord 0x40100000 ∧ reservedWord 0 ∧ reservedWord 0xF0000000 ∧ reservedWord 0x31000000 ∧
      reservedWord 0x30400000 ∧ reservedWord 0x90000100 ∧ reservedWord 0x70000001 ∧ reservedWord 0xE0000015 ∧
      reservedWord 0x89000000 ∧ reservedWord 0xAF800000) ∧
    (port [0] start).phase = .idle ∧ (port [0] start).cmds = [{ word := 0, wdata := start.wdata }] := by
  refine ⟨⟨?_, ?_, ?_, ?_, ?_, ?_, ?_, ?_, ?_, ?_⟩, rfl, rfl⟩ <;> simp only [reservedWord] <;> decide

theorem witness_LongPayloadLengthsAreReserved : 8 < (9#4).toNat ∧ 8 < (15#4).toNat ∧
    (fieldLen 0x89000000 = 9 ∧ fieldOp 0x89000000 = 8) ∧ fieldLen 0xAF000000 = 15 ∧ fieldOp 0xAF000000 = 10 := by decide

theorem witness_StepRunsTheDecodedCommand : (port [0x70000000] node).phase = .idle ∧
    (port [0x70000000] node).cmds = [{ word := 0x70000000, wdata := node.wdata }] ∧
    decode 0x70000000 = .ok .readId := by decide

theorem witness_IdleEngineWaits : node.phase = .idle ∧ node.cmds = [] := by decide

theorem witness_BusyEngineSeesNoCommand : (waiting 2 node).busy = true := by decide

theorem witness_EndedOperationsLeaveTheEngineIdle : (∃ t, exec .dataAvailable node = .next t) ∧
    (∃ t, exec (.waitForData 2) node = .next t ∧ t.busy = true) :=
  ⟨exists_next (by decide +kernel), exists_next_with (by decide +kernel)⟩

theorem witness_PortPacksTheBanks : 0 < 8 ∧ 7 < 8 := by decide

theorem witness_RingWriteStoresAtTheTail : ringEmpty.wf 1 = true ∧ ringEmpty.len ≠ 1 ∧
    ringFull.wf 1 = true ∧ ringFull.len = 1 := by decide

theorem witness_RingReadTakesTheHead : ringEmpty.wf 1 = true ∧ ringEmpty.len = 0 ∧
    ringFull.wf 1 = true ∧ ringFull.len ≠ 0 := by decide

theorem witness_PeekShowsTheOldestByte : ringEmpty.wf 1 = true ∧ ringFull.wf 1 = true := by decide

theorem witness_RingIsFirstInFirstOut : ringFull.wf 1 = true := by decide

theorem witness_RingLengthCountsAcceptedCalls : ringFull.wf 1 = true := by decide

theorem witness_AvailableOnAHostReportsTheQueue : host.devState ≠ .powerOnReset ∧ host.role = .host := by decide

theorem witness_AvailableOnANodeRunsTheFourSteps : node.devState ≠ .powerOnReset ∧ node.role = .node ∧
    node.BuffersOk := by decide

/-- The first poll sees a falling edge and a byte; before the second the clocks go on, the level stays, no byte comes. -/
theorem witness_RepollingIsHarmless :
    let s := moves (move [7] .low 5 0 :: List.replicate 5 (move [] .low 5 1)) node
    s.devState ≠ .powerOnReset ∧ s.role = .node ∧ s.BuffersOk ∧ ∃ t, exec .available s = .next t ∧
      (t.env.advance.rxLevel = t.det.lastLevel ∧ t.env.advance.advance.rxQueue = [] ∧ t.env.moves ≠ []) :=
  ⟨by decide, by decide, by decide, exists_next_prop (by decide +kernel)⟩

theorem witness_DataAvailableCountsTheBuffer : node.devState ≠ .powerOnReset ∧ node.cfg.Ok ∧ node.BuffersOk := by decide

/-- One state for each outcome: two bytes, a wrong first byte, a header. -/
theorem witness_ReadIdOutcomes :
    ((fill [0x55, 0xC1] node).devState ≠ .powerOnReset ∧ (fill [0x55, 0xC1] node).BuffersOk ∧
      (fill [0x55, 0xC1] node).fb.len < 3) ∧
    ((fill [0x54, 0xC1, 0xAA] node).BuffersOk ∧ 3 ≤ (fill [0x54, 0xC1, 0xAA] node).fb.len ∧
      held (fill [0x54, 0xC1, 0xAA] node) = [0x54, 0xC1, 0xAA]) ∧
    (fill [0x55, 0xC1, 0xAA] node).BuffersOk ∧ 3 ≤ (fill [0x55, 0xC1, 0xAA] node).fb.len ∧
      held (fill [0x55, 0xC1, 0xAA] node) = [0x55, 0xC1, 0xAA] := by decide +kernel

/-- Length 0 with nothing buffered, length 8 with nine bytes: a wrong checksum, a right one (95 section 2.8). -/
theorem witness_ReadDataOutcomes :
    (node.devState ≠ .powerOnReset ∧ node.BuffersOk ∧ (0#4).toNat ≤ 8 ∧ node.fb.len ≤ (0#4).toNat) ∧
    ((fill [1, 2, 3, 4, 5, 6, 7, 8, 9] node).BuffersOk ∧ (8#4).toNat ≤ 8 ∧
      8 < (fill [1, 2, 3, 4, 5, 6, 7, 8, 9] node).fb.len ∧ checksum [1, 2, 3, 4, 5, 6, 7, 8] 8 none ≠ 9) ∧
    (fill [1, 2, 3, 4, 5, 6, 7, 8, 0xDB] node).BuffersOk ∧ checksum [1, 2, 3, 4, 5, 6, 7, 8] 8 none = 0xDB := by
  decide +kernel

theorem witness_WaitOnBufferedBytesEndsAtOnce : (fill [1] node).devState ≠ .powerOnReset ∧
    (0#8).toNat + 1 ≤ (fill [1] node).fb.len := by decide +kernel

theorem witness_WaitEntersItsLoop : node.endPulse.devState ≠ .powerOnReset ∧ node.endPulse.rspValid = false := by decide

/-- The three clauses: enough bytes; late by one; at the limit. -/
theorem witness_WaitTurnOutcomes :
    (waiting 0 node).devState ≠ .powerOnReset ∧ (waiting 0 node).phase = .waitLoop 0 0 10 ∧
    (0#8).toNat + 1 ≤ (waiting 0 (fill [1] node)).fb.len ∧ (waiting 0 node).fb.len < (0#8).toNat + 1 ∧
    10 < ((moves [move [] .high 0 11] (waiting 0 node)).env.advance.millis - 0).toNat ∧
    ¬ 10 < ((moves [move [] .high 0 10] (waiting 0 node)).env.advance.millis - 0).toNat := by decide +kernel

/-- Eleven moves of one millisecond pass the limit of 10. -/
theorem witness_WaitEndsWhenTheClockRuns :
    let s := moves (List.replicate 11 (move [] .high 0 1)) (waiting 2 node)
    s.phase = .waitLoop 2 0 10 ∧ (∀ m ∈ s.env.moves, 1 ≤ m.addMillis.toNat) ∧
    (s.env.millis - 0).toNat + (s.env.moves.map fun m => m.addMillis.toNat).sum < 2 ^ 32 ∧
    10 < (s.env.millis - 0).toNat + s.env.moves.length := by decide +kernel

theorem witness_WriteHeaderSendsTheHeader : (node.devState ≠ .powerOnReset ∧ node.role = .node) ∧
    host.devState ≠ .powerOnReset ∧ host.role = .host := by decide

theorem witness_WriteDataSendsPayloadAndChecksum : node.devState ≠ .powerOnReset ∧ (0#4).toNat ≤ 8 ∧
    (8#4).toNat ≤ 8 := by decide

/-- The two ends of the rate. -/
theorem witness_BeginInitialises : (1 ≤ (1#20).toNat ∧ (1#20).toNat ≤ 1000000) ∧
    (1 ≤ (1000000#20).toNat ∧ (1000000#20).toNat ≤ 1000000) ∧ (true = true → start.cfg.hasTx = true) := by decide

theorem witness_BeginOutsideItsDomainIsRefused : (0#20).toNat = 0 ∧ 1000000 < (1000001#20).toNat ∧
    startNoTx.cfg.hasTx = false := by decide

theorem witness_SleepSendsTheSleepFrameOnAForcedHost : node.devState ≠ .powerOnReset ∧ node.role = .node ∧
    host.devState ≠ .powerOnReset ∧ host.role = .host := by decide

theorem witness_WakeEnablesTheTransceiver : (host.devState ≠ .powerOnReset ∧ host.role = .host) ∧
    ((startNoTx.initialise 19200 false).devState ≠ .powerOnReset ∧
      (startNoTx.initialise 19200 false).cfg.hasTx = false) ∧
    node.devState ≠ .powerOnReset ∧ node.role = .node ∧ node.cfg.hasTx = true := by decide

theorem witness_DeviceStateDiagram : start.devState = .powerOnReset ∧
    (∃ t, exec (.beginOp 1 false) start = .next t) ∧ (∃ t, exec .wake node = .next t) ∧
    (∃ t, exec (.sleep true) host = .next t) ∧ ∃ t, exec .readId node = .next t :=
  ⟨rfl, exists_next (by decide +kernel), exists_next (by decide +kernel), exists_next (by decide +kernel), exists_next (by decide +kernel)⟩

theorem witness_OnlyFiveOperationsRunBeforeBegin : (Instr.readData .bank 8).wellFormed = true ∧
    start.devState = .powerOnReset := by decide

theorem witness_ChecksumIgnoresOrder : [1, 2, 3, 4, 5, 6, 7, (8 : Byte)].Perm [8, 1, 2, 3, 4, 5, 6, 7] ∧
    [1, 2, 3, 4, 5, 6, 7, (8 : Byte)].length ≤ 8 := by decide

theorem witness_ChecksumReceiverFindsAllOnes : [1, 2, 3, 4, 5, 6, 7, (8 : Byte)].length ≤ 8 := by decide

theorem witness_BitPeriodIsTheQuotient : (1 ≤ (1#20).toNat ∧ (1#20).toNat ≤ 1000000) ∧
    1 ≤ (1000000#20).toNat ∧ (1000000#20).toNat ≤ 1000000 := by decide

theorem witness_ElapsedTimeAcrossTheWrap : 0 < 2 ^ 32 ∧ 2 ^ 32 - 1 < 2 ^ 32 := by decide

/-- Each kind of premise: a length at its bound, an operation other than BEGIN, a BEGIN at the bound of its domain. -/
theorem witness_EveryOperationCompletesAfterBegin : (Instr.writeData .bank 8).wellFormed = true ∧
    node.devState ≠ .powerOnReset ∧ (∀ baud isHost, Instr.writeData .bank 8 ≠ .beginOp baud isHost) ∧
    (Instr.beginOp 1000000 true).wellFormed = true ∧ (1000000#20).toNat ≤ 1000000 ∧ node.cfg.hasTx = true :=
  ⟨by decide, by decide, nofun, by decide, by decide, by decide⟩

theorem witness_EveryRegisterHasItsWriters : (∃ t, exec .wake node = .next t) ∧
    (∀ baud isHost, Instr.wake ≠ .beginOp baud isHost) ∧ (∀ w, Instr.wake ≠ .linVersion w) ∧
    ∀ buf len, Instr.wake ≠ .readData buf len :=
  ⟨exists_next (by decide +kernel), nofun, nofun, nofun⟩

theorem witness_DetectionStateAndBuffersHaveTheirWriters : (∃ t, exec .available host = .next t) ∧
    (∀ baud isHost, Instr.available ≠ .beginOp baud isHost) ∧
    ¬ (host.role = .node ∧ (Instr.available = .available ∨ ∃ size, Instr.available = .waitForData size)) ∧
    Instr.available ≠ .readId ∧ ∀ buf len, Instr.available ≠ .readData buf len :=
  ⟨exists_next (by decide +kernel), nofun, fun h => absurd h.1 (by decide), nofun, nofun⟩

theorem witness_CallsFollowTheCollaboratorTable : (∃ t, exec (.writeHeader 1) host = .next t) ∧
    (waiting 2 node).phase = .waitLoop 2 0 10 ∧ ∃ t, step (waiting 2 node) = .next t :=
  ⟨exists_next (by decide +kernel), rfl, exists_next (by decide +kernel)⟩

theorem witness_LinVersionHasNoEffect : ∀ w, Instr.available ≠ .linVersion w := nofun

theorem witness_HostNeverFillsTheFrameBuffer : host.devState ≠ .powerOnReset ∧ host.role = .host ∧ host.fb.len = 0 ∧
    (∃ t, step (port [0x40000000] host) = .next t) ∧ (8#4).toNat ≤ 8 :=
  ⟨by decide, rfl, rfl, exists_next (by decide +kernel), by decide⟩

/-- The ends of the two stores, for the largest and the smallest capacity. -/
theorem witness_ResetLeavesPowerOnReset : 255 < 256 ∧ 255 < ({ Config.sample with nFb := 256 } : Config).nFb ∧
    0 < ({ Config.sample with nFb := 1 } : Config).nFb ∧ 7 < 8 := by decide

theorem witness_ResetMeetsTheInvariant : Config.sample.Ok := by decide

/-- The state after BEGIN meets the invariant, and a step from it answers a next state. -/
theorem witness_StepKeepsTheInvariant : (port [0x70000000] node).Inv ∧
    ∃ t, step (port [0x70000000] node) = .next t := by
  refine ⟨⟨by decide, by decide, by decide, by decide, by decide, rfl, fun _ => ?_⟩, exists_next (by decide +kernel)⟩
  exact ⟨by decide, by decide, by decide, by decide, rfl, rfl, by decide, fun _ => rfl, fun h => absurd h (by decide), rfl⟩

/-- The state after BEGIN shadows its trace, and a step from it answers a next state. -/
theorem witness_PinsShadowTheTrace : (port [0x30000000] node).PinsShadowTrace ∧
    ∃ t, step (port [0x30000000] node) = .next t := by
  refine ⟨⟨fun l h => ?_, fun l h => ?_, rfl, rfl, rfl, fun o h => ?_⟩, exists_next (by decide +kernel)⟩
  · have e : some Level.high = some l := h
    cases e; rfl
  · have e : (none : Option Level) = some l := h
    cases e
  · have e : some TxOwner.serial = some o := h
    cases e; rfl

/-- A Host that sends a header, one that sends the sleep frame, and a BEGIN. -/
theorem witness_PeripheralCallsTakeOneMoveEach : host.role = .host ∧ (∃ t, exec (.writeHeader 1) host = .next t) ∧
    (∃ t, exec (.sleep true) host = .next t) ∧ ∃ t, exec (.beginOp 19200 false) start = .next t :=
  ⟨rfl, exists_next (by decide +kernel), exists_next (by decide +kernel), exists_next (by decide +kernel)⟩

end Sys2Proof.Tests
end

section
/-! PROOFS. The ring buffer primitives of 20_memory.md: a write (R62) and a read (R63). -/

namespace Sys2Proof.Machine

/-- Settles O12. A buffer with room stores through `Memory.write`, whose law at every address needs the addresses of the
store in order; R60 gives that. -/
theorem ringWriteStoresAtTheTail : Obligations.RingWriteStoresAtTheTail := by
  intro n b v hwf
  refine ⟨fun hfull => Ring.write_full hfull v, fun hroom => ?_⟩
  obtain ⟨-, -, -, -, hmem, -⟩ := (Ring.wf_iff n b).1 hwf
  have hsorted : b.mem.Sorted := ((Memory.wf_iff b.mem).1 hmem).1
  exact ⟨_, Ring.write_room hroom v, rfl, rfl, rfl, Memory.read_write hsorted b.tail v⟩

/-- Settles O13. The buffer left by an accepted read is the one `Ring.read_some` writes out; it meets R60 by
`Ring.read_wf`. -/
theorem ringReadTakesTheHead : Obligations.RingReadTakesTheHead := by
  intro n b hwf
  refine ⟨Ring.read_empty, fun hsome => ?_⟩
  have hkeeps : (b.read n).2.wf n = true := Ring.read_wf hwf
  rw [Ring.read_some hsome] at hkeeps
  exact ⟨_, Ring.read_some hsome, rfl, rfl, rfl, rfl, hkeeps⟩

end Sys2Proof.Machine
end

section
/-! PROOFS. The header codec of 42_header_codec.md: what READ_ID (R160) answers and leaves in each of its outcomes (R162). -/

namespace Sys2Proof.Machine

/-! ### Ring buffers: a read written out -/

/-- The buffer a read leaves, accepted or not (R63). -/
theorem Ring.read_snd (n : Nat) (b : Ring) : (b.read n).2 =
    if b.len = 0 then b else { b with head := (b.head + 1) % n, len := b.len - 1 } := by
  split
  case isTrue hempty => rw [Ring.read_empty hempty]
  case isFalse hsome => rw [Ring.read_some hsome]

/-- Two reads of a buffer that holds two bytes move the head and the length by two (R63). -/
theorem Ring.read_read {n : Nat} {b : Ring} (hlen : 2 ≤ b.len) :
    ((b.read n).2.read n).2 = { b with head := (b.head + 2) % n, len := b.len - 2 } := by
  rw [Ring.read_snd n (b.read n).2, Ring.read_len, if_neg (by omega), Ring.read_snd, if_neg (by omega)]
  simp only [Nat.mod_add_mod, Nat.add_assoc, Nat.sub_sub]

/-- A buffer whose oldest byte is `v` shows it to a peek, and a read leaves the bytes behind it (R63, R64). -/
theorem Ring.peek_read_of_content_cons {n : Nat} {b : Ring} {v : Byte} {rest : List Byte} (h : b.wf n = true)
    (hc : b.content n = v :: rest) : b.peek = some v ∧ (b.read n).2.content n = rest := by
  rw [Ring.peek_content h, (Ring.read_content h).2, hc]
  exact ⟨rfl, rfl⟩

/-! ### Dropping a byte or a marker keeps R60 -/

theorem State.fbDrop_buffersOk {s : State} (h : s.BuffersOk) : s.fbDrop.BuffersOk :=
  ⟨Ring.read_wf h.1, h.2⟩

theorem State.spDrop_buffersOk {s : State} (h : s.BuffersOk) : s.spDrop.BuffersOk :=
  ⟨h.1, Ring.read_wf h.2⟩

/-! ### READ_ID step by step (R160) -/

/-- A byte in the result is widened with zeros (R95). -/
theorem zext16_toNat (b : Byte) : zext16 b.toNat = b.zeroExtend 16 := BitVec.ofNat_toNat 16 b

/-- The parity test of step 8 as an equation. -/
theorem pidValid_iff (pid : Byte) : pidValid pid = true ↔ pid &&& 0xC0 = calcIdParity (pid &&& 0x3F) :=
  decide_eq_true_iff

/-- The state of READ_ID after steps 2 and 3: the frame start uncounted, the oldest byte gone. -/
def State.uncountDrop (s : State) : State := (s.setDet { s.det with breakCount := s.det.breakCount - 1 }).fbDrop

@[simp] theorem State.uncountDrop_fb (s : State) : s.uncountDrop.fb = (s.fb.read s.cfg.nFb).2 := rfl

theorem State.uncountDrop_buffersOk {s : State} (h : s.BuffersOk) : s.uncountDrop.BuffersOk :=
  State.fbDrop_buffersOk (s := s.setDet _) h

/-- What READ_ID answers for a protected identifier: the identifier, or ParityMismatch. -/
def readIdResult (pid : Byte) : Result :=
  if pid &&& 0xC0 = calcIdParity (pid &&& 0x3F) then (pid &&& 0x3F).zeroExtend 16 else 0xFFFC

theorem readIdResult_valid {pid : Byte} (h : pidValid pid = true) :
    readIdResult pid = zext16 (idOfPid pid).toNat :=
  (if_pos ((pidValid_iff pid).1 h)).trans (zext16_toNat _).symm

theorem readIdResult_invalid {pid : Byte} (h : ¬pidValid pid = true) : readIdResult pid = 0xFFFC :=
  if_neg (mt (pidValid_iff pid).2 h)

/-- Steps 5 to 9 in one equation: both outcomes drop the marker and the identifier, and only the answer tells them
apart. -/
theorem State.readPid_eq (s : State) :
    s.readPid = s.spDrop.fbDrop.finish (readIdResult ((s.fb.peek).getD 0)) := by
  by_cases hvalid : pidValid ((s.fb.peek).getD 0) = true
  · rw [readIdResult_valid hvalid]
    exact if_pos hvalid
  · rw [readIdResult_invalid hvalid]
    exact if_neg hvalid

theorem State.readPid_buffersOk {s : State} (h : s.BuffersOk) : s.readPid.BuffersOk := by
  rw [State.readPid_eq]
  exact State.fbDrop_buffersOk (State.spDrop_buffersOk h)

theorem State.readHeader_notReady {s : State} (hshort : s.fb.len < 3) : s.readHeader = s.raise .notReady :=
  if_pos hshort

/-- With enough bytes buffered, step 4 decides on the oldest one. -/
theorem State.readHeader_ready {s : State} (hlen : 3 ≤ s.fb.len) : s.readHeader =
    if (s.fb.peek).getD 0 = 0x55 then s.uncountDrop.readPid else s.uncountDrop.raise .syncMismatch :=
  if_neg (Nat.not_lt.2 hlen)

theorem State.readHeader_buffersOk {s : State} (h : s.BuffersOk) : s.readHeader.BuffersOk := by
  have hdrop : s.uncountDrop.BuffersOk := State.uncountDrop_buffersOk h
  rcases Nat.lt_or_ge s.fb.len 3 with hshort | hlen
  · rw [State.readHeader_notReady hshort]
    exact h
  · rw [State.readHeader_ready hlen]
    split
    · exact State.readPid_buffersOk hdrop
    · exact hdrop

/-- After BEGIN, READ_ID answers the state `State.readHeader` computes. -/
theorem exec_readId {s : State} (h : s.devState ≠ .powerOnReset) : exec .readId s = .next s.readHeader :=
  State.afterBegin_begun h _

/-! ### The whole state each outcome leaves (R162) -/

theorem State.uncountDrop_raise_syncMismatch {s : State} (hlen : 3 ≤ s.fb.len) : s.uncountDrop.raise .syncMismatch =
    { s with fb := { s.fb with head := (s.fb.head + 1) % s.cfg.nFb, len := s.fb.len - 1 },
             det := { s.det with breakCount := s.det.breakCount - 1 },
             result := 0xFFFD, phase := .idle, rspValid := true } := by
  have hfb := Ring.read_snd s.cfg.nFb s.fb
  rw [if_neg (by omega)] at hfb
  ext : 1
  case fb => exact hfb
  all_goals rfl

theorem State.uncountDrop_spDrop_fbDrop_finish {s : State} (hlen : 3 ≤ s.fb.len) (r : Result) :
    s.uncountDrop.spDrop.fbDrop.finish r =
      { s with fb := { s.fb with head := (s.fb.head + 2) % s.cfg.nFb, len := s.fb.len - 2 },
               sp := if s.sp.len = 0 then s.sp else { s.sp with head := (s.sp.head + 1) % 8, len := s.sp.len - 1 },
               det := { s.det with breakCount := s.det.breakCount - 1 },
               result := r, phase := .idle, rspValid := true } := by
  ext : 1
  case fb => exact Ring.read_read (b := s.fb) (by omega)
  case sp => exact Ring.read_snd Config.nSp s.sp
  all_goals rfl

/-- Settles O21. The outcomes are the branches of `State.readHeader`; ParityMismatch and success share one, since they
differ only in the answer. -/
theorem readIdOutcomes : Obligations.ReadIdOutcomes := by
  intro s hbegun hok
  obtain ⟨hfb, hsp⟩ := hok
  refine ⟨s.readHeader, exec_readId hbegun, State.readHeader_buffersOk ⟨hfb, hsp⟩, ?notReady, ?syncMismatch, ?sync⟩
  case notReady => exact State.readHeader_notReady
  case syncMismatch =>
    intro b rest hlen hcontent hb
    obtain ⟨hpeek, hrest⟩ := Ring.peek_read_of_content_cons hfb hcontent
    rw [State.readHeader_ready hlen, hpeek, Option.getD_some, if_neg hb]
    exact ⟨hrest, State.uncountDrop_raise_syncMismatch hlen⟩
  case sync =>
    intro pid rest hlen hcontent
    obtain ⟨hpeek, hnext⟩ := Ring.peek_read_of_content_cons hfb hcontent
    obtain ⟨hpid, hrest⟩ := Ring.peek_read_of_content_cons (Ring.read_wf hfb) hnext
    rw [State.readHeader_ready hlen, hpeek, Option.getD_some, if_pos rfl, State.readPid_eq, State.uncountDrop_fb, hpid]
    exact ⟨hrest, (Ring.read_content hsp).2, State.uncountDrop_spDrop_fbDrop_finish hlen _⟩

end Sys2Proof.Machine
end

section
/-! PROOFS. The header of 44_host_transmit.md: the command word of WRITE_HEADER, and what it answers and leaves in either role (R190). -/

namespace Sys2Proof.Machine

/-- A byte operand stands in the low eight bits of the command word, over the rest of the fields (R91). -/
theorem cmdWord_argOfByte (op len : BitVec 4) (nul flg : BitVec 1) (b : Byte) :
    cmdWord op len nul flg (argOfByte b) = cmdWord op len nul flg 0 ||| b.zeroExtend 32 := by
  apply BitVec.eq_of_getLsbD_eq
  intro i hi
  simp only [cmdWord, argOfByte, BitVec.getLsbD_or, BitVec.getLsbD_append, BitVec.getLsbD_setWidth, hi]
  by_cases hlow : i < 8
  case pos => simp [hlow, show i < 20 by omega]
  case neg => simp [hlow, BitVec.getLsbD_of_ge b i (by omega)]

/-- What a transmission leaves is the state before it with the three fields a transmission writes replaced. -/
theorem State.SendFrame.eq_with {s t : State} (h : s.SendFrame t) :
    t = { s with trace := t.trace, pins := t.pins, env := t.env } :=
  State.ext h.cfg h.role h.devState h.phase h.baud h.bitUs h.linVersion h.fb h.sp h.det h.scratch h.wdata h.rdata
    h.result h.rspValid rfl rfl h.cmds rfl

/-- After BEGIN, WRITE_HEADER on a Node fails with no event (R190 step 1). -/
theorem exec_writeHeader_node {s : State} (h : s.devState ≠ .powerOnReset) (hrole : s.role = .node) (id : Byte) :
    exec (.writeHeader id) s = .next (s.raise .roleViolation) := by
  rw [exec, execWriteHeader, State.afterBegin_begun h, hrole]

/-- After BEGIN, WRITE_HEADER on a Host sends the header and answers 0 (R190 steps 2 to 11). -/
theorem exec_writeHeader_host {s : State} (h : s.devState ≠ .powerOnReset) (hrole : s.role = .host) (id : Byte) :
    exec (.writeHeader id) s = .next ((s.sendHeader id).finish 0) := by
  rw [exec, execWriteHeader, State.afterBegin_begun h, hrole]

/-- The state a header leaves: its calls in the trace, TX high and the peripheral's, and a new environment (R190). -/
theorem State.sendHeader_eq (id : Byte) (s : State) : s.sendHeader id =
    { s with trace := s.trace ++ headerEvents s.bitUs.toNat id
             pins := { s.pins with txLevel := .high, txOwner := .serial }
             env := (s.sendHeader id).env } := by
  rw [← State.sendHeader_trace, ← State.sendHeader_pins]
  exact (State.sendHeader_frame id s).eq_with

/-- Settles O29. Both roles are branches of `execWriteHeader`; the Host's state is `State.sendHeader_eq`. -/
theorem writeHeaderSendsTheHeader : Obligations.WriteHeaderSendsTheHeader := by
  refine ⟨fun id => cmdWord_argOfByte 9 0 0 0 id, fun s id hbegun => ⟨?node, ?host⟩⟩
  case node => exact fun hrole => exec_writeHeader_node hbegun hrole id
  case host =>
    intro hrole
    exact ⟨_, exec_writeHeader_host hbegun hrole id, State.sendHeader_txPending id s,
      congrArg (State.finish 0) (State.sendHeader_eq id s)⟩

end Sys2Proof.Machine
end

section
/-! PROOFS. The checksum and parity engine of 45_checksum_parity.md: the source's checksum vectors (R215), and what CALC_ID_PARITY (R210) and DATA_LENGTH_CODE (R218) answer. -/

namespace Sys2Proof.Machine

/-! ### Checksum -/

/-- Up to the cap of 8 bytes, the checksum of all the data is the complement of its sum (R212). -/
theorem checksum_length {data : List Byte} (h : data.length ≤ 8) (seed : Option Byte) :
    checksum data data.length seed = ~~~ BitVec.ofNat 8 (checksumSum data seed) := by
  rw [checksum, maxData, Nat.min_eq_left h, List.take_length]

/-- Settles O41. The two sums are evaluated; each checksum is then the complement of its sum. -/
theorem sourceChecksumVectors : Obligations.SourceChecksumVectors := by
  have hclassic : checksumSum [0x01, 0x02, 0x03] none = 6 := by decide
  have hseeded : checksumSum [0x02] (some 0x01) = 3 := by decide
  refine ⟨hclassic, (checksum_length (by decide) none).trans ?classic,
    hseeded, (checksum_length (by decide) (some 0x01)).trans ?seeded⟩
  case classic => rw [hclassic]; decide
  case seeded => rw [hseeded]; decide

/-! ### Parity -/

/-- A byte put together from two bits over six zeros has them in bits 6 and 7, and nothing below. -/
theorem parityByte_bits : ∀ p1 p0 : Bool, let p : Byte := BitVec.ofBool p1 ++ BitVec.ofBool p0 ++ 0#6
    p.getLsbD 6 = p0 ∧ p.getLsbD 7 = p1 ∧ p &&& 0x3F = 0 := by decide

/-- The parity byte of an identifier: `p0` in bit 6, `p1` in bit 7, every other bit zero (R210). -/
theorem calcIdParity_bits (id : Byte) :
    (calcIdParity id).getLsbD 6 = (id.getLsbD 0 ^^ id.getLsbD 1 ^^ id.getLsbD 2 ^^ id.getLsbD 4) ∧
    (calcIdParity id).getLsbD 7 = (!(id.getLsbD 1 ^^ id.getLsbD 3 ^^ id.getLsbD 4 ^^ id.getLsbD 5)) ∧
    calcIdParity id &&& 0x3F = 0 :=
  parityByte_bits _ _

/-- CALC_ID_PARITY answers the parity byte from any state, before BEGIN too (R210, R262). -/
theorem exec_calcIdParity (id : Byte) (s : State) :
    exec (.calcIdParity id) s = .next (s.finish ((calcIdParity id).zeroExtend 16)) := by
  rw [exec, execCalcIdParity, zext16_toNat]

/-- Settles O43. The byte asked for is `calcIdParity id`. -/
theorem calcIdParityResult : Obligations.CalcIdParityResult := by
  refine ⟨fun id => cmdWord_argOfByte 12 0 0 0 id, fun s id => ?_⟩
  obtain ⟨hp0, hp1, hlow⟩ := calcIdParity_bits id
  exact ⟨calcIdParity id, hp0, hp1, hlow, exec_calcIdParity id s⟩

/-! ### Data length code -/

/-- The advisory length in the result depends on the two bits 5:4 only (R101, R218). -/
theorem zext16_dataLengthOf (pid : Byte) : zext16 (dataLengthOf pid) =
    if pid.extractLsb' 4 2 = 3 then 8 else if pid.extractLsb' 4 2 = 2 then 4 else 2 := by
  rw [dataLengthOf]
  generalize pid.extractLsb' 4 2 = dlc
  revert dlc
  decide

/-- Settles O44. It runs from any state, and its answer is `zext16_dataLengthOf`. -/
theorem dataLengthCodeResult : Obligations.DataLengthCodeResult := by
  refine ⟨fun pid => cmdWord_argOfByte 13 0 0 0 pid, fun s pid => ?_⟩
  rw [exec, execDataLengthCode, zext16_dataLengthOf]
  rfl

end Sys2Proof.Machine
end

section
/-! PROOFS. The state diagram of 46_device_state.md: what each operation makes of the device state and CS (R240). -/

namespace Sys2Proof.Machine

/-! ### The two fields of the diagram -/

/-- The device state and the level of CS (R22, R37): all of the state that the diagram of R240 speaks of. -/
def State.device (s : State) : DevState × Level := (s.devState, s.pins.csLevel)

/-- The diagram of R240: where an operation that completes leads from the device state and CS level `d`. -/
def deviceAfter (i : Instr) (d : DevState × Level) : DevState × Level :=
  match i with
  | .beginOp _ _ => (.ready, .high)
  | .wake => (.ready, .high)
  | .sleep _ => (.sleep, .low)
  | _ => d

/-- An operation with no arrow of its own in the diagram keeps both. -/
theorem deviceAfter_other {i : Instr} (hbegin : ∀ baud isHost, i ≠ .beginOp baud isHost) (hwake : i ≠ .wake)
    (hsleep : ∀ force, i ≠ .sleep force) (d : DevState × Level) : deviceAfter i d = d := by
  cases i with
  | beginOp baud isHost => exact absurd rfl (hbegin baud isHost)
  | wake => exact absurd rfl hwake
  | sleep force => exact absurd rfl (hsleep force)
  | _ => rfl

/-- The arrows of the diagram lead to Ready and Sleep only. -/
theorem deviceAfter_fst (i : Instr) (d : DevState × Level) :
    (deviceAfter i d).1 = .ready ∨ (deviceAfter i d).1 = .sleep ∨ (deviceAfter i d).1 = d.1 := by
  cases i with
  | beginOp | wake => exact .inl rfl
  | sleep => exact .inr (.inl rfl)
  | _ => exact .inr (.inr rfl)

/-! ### What keeps them -/

theorem State.PollFrame.device {s t : State} (h : s.PollFrame t) : t.device = s.device :=
  Prod.ext h.devState (congrArg Pins.csLevel h.pins)

/-- A turn of the wait ends it or polls, and a poll writes neither (R140, R180). -/
theorem State.waitTurn_device (s : State) (size : Byte) (t0 : Time) (limit : Nat) :
    (s.waitTurn size t0 limit).device = s.device := by
  rcases s.waitTurn_cases size t0 limit with henough | hlate | hpoll
  · rw [henough]; rfl
  · rw [hlate]; rfl
  · rw [hpoll]; exact s.readMillis.2.availableBody_frame.device

theorem State.readPid_device (s : State) : s.readPid.device = s.device := by
  rw [State.readPid_eq]; rfl

theorem State.readHeader_device (s : State) : s.readHeader.device = s.device := by
  rcases Nat.lt_or_ge s.fb.len 3 with hshort | hlen
  · rw [State.readHeader_notReady hshort]; rfl
  · rw [State.readHeader_ready hlen]
    split
    · exact s.uncountDrop.readPid_device
    · rfl

theorem State.checkPayload_device (len : Nat) (s : State) : (s.checkPayload len).device = s.device := by
  simp only [State.checkPayload]
  split <;> rfl

theorem State.readPayload_device (buf : Buf) (len : Nat) (s : State) : (s.readPayload buf len).device = s.device := by
  cases buf with
  | null => rfl
  | bank =>
    simp only [State.readPayload]
    split
    · rfl
    · exact (s.popPayload len).checkPayload_device len

/-- A header drives TX, not CS (R190). -/
theorem State.sendHeader_device (id : Byte) (s : State) : (s.sendHeader id).device = s.device := by
  rw [State.sendHeader_eq]; rfl

theorem State.sendPayload_device (data : List Byte) (s : State) : (s.sendPayload data).device = s.device :=
  Prod.ext (State.sendPayload_frame data s).devState (congrArg Pins.csLevel (State.sendPayload_pins data s))

/-! ### The operations one by one -/

/-- Behind the gate, the device state and CS are those of the operation's own next state (R262). -/
theorem State.afterBegin_device {s t u : State} {d : DevState × Level} (h : s.afterBegin (.next u) = .next t)
    (hu : u.device = d) : t.device = d := by
  obtain ⟨-, rfl⟩ := State.afterBegin_next.1 h
  exact hu

/-- The same for an operation with no gate before it. -/
theorem device_of_next {t u : State} {d : DevState × Level} (h : (Host.Outcome.next u : Out) = .next t)
    (hu : u.device = d) : t.device = d := by
  cases h
  exact hu

/-- READ_DATA and WRITE_DATA answer a next state only for an admitted length (R97). -/
theorem next_of_lenOk {len : BitVec 4} {k : Out} {r : Refusal} {t : State}
    (h : (if lenOk len then k else .refused r) = .next t) : k = .next t := by
  split at h
  · exact h
  · cases h

theorem execBegin_device {baud : BitVec 20} {isHost : Bool} {s t : State} (h : execBegin baud isHost s = .next t) :
    t.device = (.ready, .high) := by
  unfold execBegin at h
  split at h
  · split at h
    · cases h
    · exact device_of_next h rfl
  · cases h

theorem execWake_device {s t : State} (h : execWake s = .next t) : t.device = (.ready, .high) :=
  State.afterBegin_device h (by split <;> rfl)

theorem execWriteHeader_device {id : Byte} {s t : State} (h : execWriteHeader id s = .next t) :
    t.device = s.device := by
  refine State.afterBegin_device h ?_
  split
  · rfl
  · exact State.sendHeader_device id s

theorem execWriteData_device {buf : Buf} {len : BitVec 4} {s t : State} (h : execWriteData buf len s = .next t) :
    t.device = s.device := by
  refine State.afterBegin_device (next_of_lenOk h) ?_
  split
  · rfl
  · exact State.sendPayload_device _ s

theorem execCalcChecksum_device {buf : Buf} {len : BitVec 4} {seed : Option Byte} {s t : State}
    (h : execCalcChecksum buf len seed s = .next t) : t.device = s.device :=
  device_of_next h (by split <;> rfl)

theorem execLinVersion_device {write : Option Byte} {s t : State} (h : execLinVersion write s = .next t) :
    t.device = s.device := by
  cases write <;> exact device_of_next h rfl

/-- Every operation that completes follows the diagram of R240. -/
theorem exec_device {i : Instr} {s t : State} (h : exec i s = .next t) : t.device = deviceAfter i s.device := by
  cases i with
  | beginOp baud isHost => exact execBegin_device h
  | sleep force => exact State.afterBegin_device h rfl
  | wake => exact execWake_device h
  | available => exact State.afterBegin_device h s.availableBody_frame.device
  | dataAvailable => exact State.afterBegin_device h rfl
  | waitForData size => exact State.afterBegin_device h (s.readMillis.2.waitTurn_device size _ _)
  | readId => exact State.afterBegin_device h s.readHeader_device
  | readData buf len => exact State.afterBegin_device (next_of_lenOk h) (s.readPayload_device buf _)
  | writeHeader id => exact execWriteHeader_device h
  | writeData buf len => exact execWriteData_device h
  | calcChecksum buf len seed => exact execCalcChecksum_device h
  | calcIdParity id => exact device_of_next h rfl
  | dataLengthCode pid => exact device_of_next h rfl
  | linVersion write => exact execLinVersion_device h

/-- Settles O36. `exec_device` gives the device state and CS after every operation; each clause reads its arrow off
`deviceAfter`. -/
theorem deviceStateDiagram : Obligations.DeviceStateDiagram := by
  refine ⟨fun s force hreset => ⟨State.afterBegin_reset hreset _, State.afterBegin_reset hreset _⟩, fun i s t h => ?_⟩
  have hdev : t.device = deviceAfter i s.device := exec_device h
  refine ⟨?ready, ?sleep, ?kept, ?neverEntered⟩
  case ready =>
    rintro (⟨baud, isHost, rfl⟩ | rfl) <;> exact Prod.mk.inj hdev
  case sleep =>
    rintro ⟨force, rfl⟩
    exact Prod.mk.inj hdev
  case kept =>
    intro hbegin hwake hsleep
    exact Prod.mk.inj (hdev.trans (deviceAfter_other hbegin hwake hsleep s.device))
  case neverEntered =>
    intro hunused
    have hstate : t.devState = (deviceAfter i s.device).1 := congrArg Prod.fst hdev
    rcases deviceAfter_fst i s.device with hready | hsleep | hsame
    · simp [hstate, hready] at hunused
    · simp [hstate, hsleep] at hunused
    · exact hstate.trans hsame

end Sys2Proof.Machine
end

section
/-! PROOFS. The command word of 30_encoding.md: the decoder and the encoder undo each other, the rows of the opcode map (R93), and the reserved words (R92, R96, R97). -/

namespace Sys2Proof

/-! ### The encoder's words decode -/

@[simp] theorem whenUnusedZero_ok_iff {ok : Bool} {i j : Instr} : whenUnusedZero ok i = .ok j ↔ ok = true ∧ i = j := by
  cases ok <;> simp [whenUnusedZero]

@[simp] theorem whenLenOk_ok_iff {len : BitVec 4} {r : Except DecodeError Instr} {j : Instr} :
    whenLenOk len r = .ok j ↔ lenOk len = true ∧ r = .ok j := by
  unfold whenLenOk
  split <;> simp [*]

theorem lenOk_iff (len : BitVec 4) : lenOk len = true ↔ len.toNat ≤ 8 := decide_eq_true_iff

theorem decode_of_fieldRsv {w : Word} (h : fieldRsv w = 0) :
    decode w = decodeFields (fieldOp w) (fieldLen w) (fieldNul w) (fieldFlg w) (fieldArg w) :=
  if_pos h

theorem decode_cmdWord (op len : BitVec 4) (nul flg : BitVec 1) (arg : BitVec 20) :
    decode (cmdWord op len nul flg arg) = decodeFields op len nul flg arg := by
  simp [decode_of_fieldRsv]

theorem decide_ofBool_eq_one (b : Bool) : decide (BitVec.ofBool b = 1#1) = b := by cases b <;> rfl

/-- The command word of a well-formed operation decodes to it (R91 to R97). -/
theorem decode_encode {i : Instr} (h : i.wellFormed = true) : decode (encode i) = .ok i := by
  cases i with
  | calcChecksum buf len seed => cases seed <;> simp [encode, decode_cmdWord, decodeFields]
  | linVersion write => cases write <;> simp [encode, decode_cmdWord, decodeFields]
  | readData | writeData =>
    simp only [Instr.wellFormed] at h
    simp [encode, decode_cmdWord, decodeFields, h]
  | _ => simp [encode, decode_cmdWord, decodeFields, decide_ofBool_eq_one]

/-- Settles O1. -/
theorem decodeUndoesEncode : Obligations.DecodeUndoesEncode :=
  fun _ h => decode_encode h

/-! ### Every accepted word is the encoder's -/

theorem ofBool_decide_eq_one (f : BitVec 1) : BitVec.ofBool (decide (f = 1)) = f := by revert f; decide

theorem eq_zero_of_ne_one {f : BitVec 1} (h : f ≠ 1) : f = 0 := by revert f; decide

/-- The fields the decoder accepts are those of the word of the operation it gives. -/
theorem encode_of_decodeFields {op len : BitVec 4} {nul flg : BitVec 1} {arg : BitVec 20} {i : Instr}
    (h : decodeFields op len nul flg arg = .ok i) : i.wellFormed = true ∧ encode i = cmdWord op len nul flg arg := by
  rw [show op = BitVec.ofNat 4 op.toNat by simp]
  unfold decodeFields at h
  generalize op.toNat = k at h ⊢
  split at h
  case h_1 | h_2 =>
    simp only [whenUnusedZero_ok_iff, decide_eq_true_eq] at h
    obtain ⟨hzero, rfl⟩ := h
    exact ⟨rfl, by simp only [hzero, encode, ofBool_decide_eq_one]; rfl⟩
  case h_3 | h_4 | h_5 | h_7 =>
    simp only [whenUnusedZero_ok_iff, decide_eq_true_eq] at h
    obtain ⟨⟨rfl, rfl, rfl, rfl⟩, rfl⟩ := h
    exact ⟨rfl, rfl⟩
  case h_6 | h_9 | h_12 | h_13 =>
    simp only [whenUnusedZero_ok_iff, decide_eq_true_eq] at h
    obtain ⟨⟨rfl, rfl, rfl, hhigh⟩, rfl⟩ := h
    exact ⟨rfl, congrArg (cmdWord _ 0 0 0) (argOfByte_argByte arg hhigh)⟩
  case h_8 | h_10 =>
    simp only [whenLenOk_ok_iff, whenUnusedZero_ok_iff, decide_eq_true_eq] at h
    obtain ⟨hlen, ⟨rfl, rfl⟩, rfl⟩ := h
    exact ⟨hlen, congrArg (cmdWord _ len · 0 0) (nulOfBuf_bufOfNul nul)⟩
  case h_11 =>
    split at h <;> simp only [whenUnusedZero_ok_iff, decide_eq_true_eq] at h <;> obtain ⟨harg, rfl⟩ := h
    case isTrue hflg =>
      exact ⟨rfl, by simp only [encode, nulOfBuf_bufOfNul, argOfByte_argByte arg harg, hflg, BitVec.ofNat_eq_ofNat]⟩
    case isFalse hflg =>
      exact ⟨rfl, by simp only [encode, nulOfBuf_bufOfNul, harg, eq_zero_of_ne_one hflg, BitVec.ofNat_eq_ofNat]⟩
  case h_14 =>
    split at h <;> simp only [whenUnusedZero_ok_iff, decide_eq_true_eq] at h <;> obtain ⟨⟨rfl, rfl, harg⟩, rfl⟩ := h
    case isTrue hflg => exact ⟨rfl, by simp only [encode, argOfByte_argByte arg harg, hflg, BitVec.ofNat_eq_ofNat]⟩
    case isFalse hflg => exact ⟨rfl, by simp only [encode, harg, eq_zero_of_ne_one hflg, BitVec.ofNat_eq_ofNat]⟩
  case h_15 => cases h

theorem encode_of_decode {w : Word} {i : Instr} (h : decode w = .ok i) : i.wellFormed = true ∧ encode i = w := by
  by_cases hrsv : fieldRsv w = 0
  · rw [decode_of_fieldRsv hrsv] at h
    rw [← cmdWord_fields w hrsv]
    exact encode_of_decodeFields h
  · rw [decode, if_neg hrsv] at h
    cases h

/-- Settles O2. -/
theorem decodedWordIsTheEncoding : Obligations.DecodedWordIsTheEncoding :=
  fun _ _ h => encode_of_decode h

/-! ### The rows of the opcode map (R93) -/

/-- An operation's command word is selected by the operation's own row, each row its lemma in `Laws.EncodedInItsRow`. -/
theorem encode_and_mask (i : Instr) : encode i &&& (rowOf i).2 = (rowOf i).1 := by
  have h : Laws.EncodedInItsRow.Statement i := by
    cases i with
    | beginOp baud isHost => exact Laws.EncodedInItsRow.beginOp baud isHost
    | sleep force => exact Laws.EncodedInItsRow.sleep force
    | wake => exact Laws.EncodedInItsRow.wake
    | available => exact Laws.EncodedInItsRow.available
    | dataAvailable => exact Laws.EncodedInItsRow.dataAvailable
    | waitForData size => exact Laws.EncodedInItsRow.waitForData size
    | readId => exact Laws.EncodedInItsRow.readId
    | readData buf len => exact Laws.EncodedInItsRow.readData buf len
    | writeHeader id => exact Laws.EncodedInItsRow.writeHeader id
    | writeData buf len => exact Laws.EncodedInItsRow.writeData buf len
    | calcChecksum buf len seed => exact Laws.EncodedInItsRow.calcChecksum buf len seed
    | calcIdParity id => exact Laws.EncodedInItsRow.calcIdParity id
    | dataLengthCode pid => exact Laws.EncodedInItsRow.dataLengthCode pid
    | linVersion write => exact Laws.EncodedInItsRow.linVersion write
  exact of_decide_eq_true h

/-- A row's constraint, read off the row's opcode alone (R97, R214, R242). -/
theorem rowConstraint_iff (w : Word) (i : Instr) : rowConstraint w i ↔
    (fieldOp (rowOf i).1 ∈ [8, 10] → (fieldLen w).toNat ≤ 8) ∧
    (fieldOp (rowOf i).1 ∈ [11, 14] → fieldFlg w = 0 → argByte (fieldArg w) = 0) := by
  cases i <;> simp [rowConstraint, rowOf, fieldOp]

/-- The word of a well-formed operation keeps the constraint of its row. -/
theorem rowConstraint_encode {i : Instr} (h : i.wellFormed = true) : rowConstraint (encode i) i := by
  cases i with
  | readData buf len | writeData buf len =>
    simpa [rowConstraint, encode] using (lenOk_iff len).1 h
  | calcChecksum buf len seed => cases seed <;> simp [rowConstraint, encode, argByte]
  | linVersion write => cases write <;> simp [rowConstraint, encode, argByte]
  | _ => trivial

theorem cmdWord_inj {op len op' len' : BitVec 4} {nul flg nul' flg' : BitVec 1} {arg arg' : BitVec 20} :
    cmdWord op len nul flg arg = cmdWord op' len' nul' flg' arg' ↔
      op = op' ∧ len = len' ∧ nul = nul' ∧ flg = flg' ∧ arg = arg' := by
  refine ⟨fun h => ?_, by rintro ⟨rfl, rfl, rfl, rfl, rfl⟩; rfl⟩
  exact ⟨by simpa using congrArg fieldOp h, by simpa using congrArg fieldLen h, by simpa using congrArg fieldNul h,
    by simpa using congrArg fieldFlg h, by simpa using congrArg fieldArg h⟩

theorem fieldRsv_and_maskWord (w : Word) (o l : BitVec 4) (n f : BitVec 1) (a : BitVec 20) :
    fieldRsv (w &&& maskWord o l n f 3 a) = fieldRsv w := by
  have hmask : (maskWord o l n f 3 a).extractLsb' 20 2 = BitVec.allOnes 2 := by
    apply BitVec.eq_of_getLsbD_eq
    intro i hi
    simp only [maskWord, BitVec.getLsbD_extractLsb', BitVec.getLsbD_append, hi]
    interval_cases i <;> simp
  rw [fieldRsv, BitVec.extractLsb'_and, hmask, BitVec.and_allOnes, fieldRsv]

/-- A word selects a row exactly when `RSV` is zero and its masked fields are the pattern's. -/
theorem and_maskWord_eq_cmdWord_iff (w : Word) (o l op len : BitVec 4) (n f nul flg : BitVec 1) (a arg : BitVec 20) :
    w &&& maskWord o l n f 3 a = cmdWord op len nul flg arg ↔ fieldRsv w = 0 ∧ fieldOp w &&& o = op ∧
      fieldLen w &&& l = len ∧ fieldNul w &&& n = nul ∧ fieldFlg w &&& f = flg ∧ fieldArg w &&& a = arg := by
  by_cases hrsv : fieldRsv w = 0
  case pos =>
    conv_lhs => rw [← cmdWord_fields w hrsv, cmdWord_and, cmdWord_inj]
    simp [hrsv]
  case neg =>
    refine iff_of_false (fun h => hrsv ?_) fun h => hrsv h.1
    rw [← fieldRsv_and_maskWord w o l n f a, h, fieldRsv_cmdWord]

@[simp] theorem bitVec4_and_15 (x : BitVec 4) : x &&& 15 = x := by revert x; decide

@[simp] theorem bitVec1_and_1 (x : BitVec 1) : x &&& 1 = x := by revert x; decide

@[simp] theorem bitVec20_and_0xFFFFF (a : BitVec 20) : a &&& 0xFFFFF = a := BitVec.and_allOnes

/-- `ARG` masked with `0xFFF00` is zero exactly when `ARG[19:8]` is. -/
theorem and_0xFFF00_eq_zero_iff (a : BitVec 20) : a &&& 0xFFF00 = 0 ↔ argHigh a = 0 := by
  have hmask : argHigh (a &&& 0xFFF00) = argHigh a := by
    rw [argHigh, BitVec.extractLsb'_and, argHigh]
    exact BitVec.and_allOnes
  refine ⟨fun h => ?_, fun h => ?_⟩
  · rw [← hmask, h]; rfl
  · rw [← argOfByte_argByte a h]; exact Laws.EncodedInItsRow.argOfByte_masked _

/-- A row's pattern has the opcode, and zero in every other field (R93). -/
theorem rowOf_pattern (i : Instr) : (rowOf i).1 = cmdWord (fieldOp (rowOf i).1) 0 0 0 0 := by
  cases i <;> (rw [rowOf]; decide)

/-- What the fields of a word say when the row of `i` selects it, the row's mask written field by field. -/
theorem and_rowOf_eq_iff {i : Instr} {l : BitVec 4} {n f : BitVec 1} {a : BitVec 20} (w : Word)
    (hmask : (rowOf i).2 = maskWord 15 l n f 3 a) : w &&& (rowOf i).2 = (rowOf i).1 ↔ fieldRsv w = 0 ∧
      fieldOp w = fieldOp (rowOf i).1 ∧ fieldLen w &&& l = 0 ∧ fieldNul w &&& n = 0 ∧ fieldFlg w &&& f = 0 ∧
      fieldArg w &&& a = 0 := by
  conv_lhs => rw [rowOf_pattern, hmask, and_maskWord_eq_cmdWord_iff, bitVec4_and_15]

/-- A word that the row of `i` selects, and that keeps the row's constraint, decodes to an operation of the row. -/
theorem exists_decode_of_row {i : Instr} {w : Word} (hrow : w &&& (rowOf i).2 = (rowOf i).1) (hcon : rowConstraint w i) :
    ∃ j, decode w = .ok j ∧ rowOf j = rowOf i := by
  cases i
  case beginOp =>
    rw [and_rowOf_eq_iff w (l := 15) (n := 1) (f := 0) (a := 0) rfl, bitVec4_and_15, bitVec1_and_1] at hrow
    obtain ⟨hrsv, hop, hlen, hnul, -, -⟩ := hrow
    rw [decode_of_fieldRsv hrsv, hop, hlen, hnul]
    simp [rowOf, fieldOp, decodeFields]
  case sleep =>
    rw [and_rowOf_eq_iff w (l := 15) (n := 1) (f := 0) (a := 0xFFFFF) rfl, bitVec4_and_15, bitVec1_and_1,
      bitVec20_and_0xFFFFF] at hrow
    obtain ⟨hrsv, hop, hlen, hnul, -, harg⟩ := hrow
    rw [decode_of_fieldRsv hrsv, hop, hlen, hnul, harg]
    simp [rowOf, fieldOp, decodeFields]
  case wake | available | dataAvailable | readId =>
    rw [and_rowOf_eq_iff w (l := 15) (n := 1) (f := 1) (a := 0xFFFFF) rfl, bitVec4_and_15, bitVec1_and_1, bitVec1_and_1,
      bitVec20_and_0xFFFFF] at hrow
    obtain ⟨hrsv, hop, hlen, hnul, hflg, harg⟩ := hrow
    rw [decode_of_fieldRsv hrsv, hop, hlen, hnul, hflg, harg]
    simp [rowOf, fieldOp, decodeFields]
  case waitForData | writeHeader | calcIdParity | dataLengthCode =>
    rw [and_rowOf_eq_iff w (l := 15) (n := 1) (f := 1) (a := 0xFFF00) rfl, bitVec4_and_15, bitVec1_and_1, bitVec1_and_1,
      and_0xFFF00_eq_zero_iff] at hrow
    obtain ⟨hrsv, hop, hlen, hnul, hflg, harg⟩ := hrow
    rw [decode_of_fieldRsv hrsv, hop, hlen, hnul, hflg]
    simp [rowOf, fieldOp, decodeFields, harg]
  case readData | writeData =>
    rw [and_rowOf_eq_iff w (l := 0) (n := 0) (f := 1) (a := 0xFFFFF) rfl, bitVec1_and_1, bitVec20_and_0xFFFFF] at hrow
    obtain ⟨hrsv, hop, -, -, hflg, harg⟩ := hrow
    have hlen : lenOk (fieldLen w) = true := (lenOk_iff _).2 hcon
    rw [decode_of_fieldRsv hrsv, hop, hflg, harg]
    simp [rowOf, fieldOp, decodeFields, hlen]
  case calcChecksum =>
    rw [and_rowOf_eq_iff w (l := 0) (n := 0) (f := 0) (a := 0xFFF00) rfl, and_0xFFF00_eq_zero_iff] at hrow
    obtain ⟨hrsv, hop, -, -, -, harg⟩ := hrow
    rw [decode_of_fieldRsv hrsv, hop]
    by_cases hflg : fieldFlg w = 1
    · simp [rowOf, fieldOp, decodeFields, hflg, harg]
    · have hzero : fieldArg w = 0 := by rw [← argOfByte_argByte _ harg, hcon (eq_zero_of_ne_one hflg)]; rfl
      simp [rowOf, fieldOp, decodeFields, eq_zero_of_ne_one hflg, hzero]
  case linVersion =>
    rw [and_rowOf_eq_iff w (l := 15) (n := 1) (f := 0) (a := 0xFFF00) rfl, bitVec4_and_15, bitVec1_and_1,
      and_0xFFF00_eq_zero_iff] at hrow
    obtain ⟨hrsv, hop, hlen, hnul, -, harg⟩ := hrow
    rw [decode_of_fieldRsv hrsv, hop, hlen, hnul]
    by_cases hflg : fieldFlg w = 1
    · simp [rowOf, fieldOp, decodeFields, hflg, harg]
    · have hzero : fieldArg w = 0 := by rw [← argOfByte_argByte _ harg, hcon (eq_zero_of_ne_one hflg)]; rfl
      simp [rowOf, fieldOp, decodeFields, eq_zero_of_ne_one hflg, hzero]

/-- Settles O3. -/
theorem decodeFollowsTheOpcodeMap : Obligations.DecodeFollowsTheOpcodeMap := by
  refine fun i w => ⟨?_, fun h => exists_decode_of_row h.1 h.2⟩
  rintro ⟨j, hdec, hrow⟩
  obtain ⟨hwf, rfl⟩ := encode_of_decode hdec
  refine ⟨?_, ?_⟩
  · rw [← hrow]; exact encode_and_mask j
  · rw [rowConstraint_iff, ← hrow, ← rowConstraint_iff]
    exact rowConstraint_encode hwf

/-! ### Reserved words (R92, R96, R97) -/

@[simp] theorem argHigh_zero : argHigh 0#20 = 0#12 := by decide

@[simp] theorem argByte_zero : argByte 0#20 = 0#8 := by decide

/-- The word of a well-formed operation is not reserved. -/
theorem not_reservedWord_encode {i : Instr} (h : i.wellFormed = true) : ¬ reservedWord (encode i) := by
  cases i with
  | readData buf len | writeData buf len =>
    have hlen : len.toNat ≤ 8 := (lenOk_iff len).1 h
    simp [reservedWord, encode, hlen]
  | calcChecksum buf len seed => cases seed <;> simp [reservedWord, encode]
  | linVersion write => cases write <;> simp [reservedWord, encode]
  | _ => simp [reservedWord, encode]

/-- The decoder refuses every reserved word. -/
theorem decode_reservedWord {w : Word} (h : reservedWord w) : ∃ e, decode w = .error e := by
  cases hdec : decode w with
  | error e => exact ⟨e, rfl⟩
  | ok i =>
    obtain ⟨hwf, rfl⟩ := encode_of_decode hdec
    exact absurd h (not_reservedWord_encode hwf)

end Sys2Proof

namespace Sys2Proof.Machine

/-- An idle engine runs the operation the word at the port decodes to (R90). -/
theorem step_decoded {s : State} {c : Command} {rest : List Command} {i : Instr} (hidle : s.phase = .idle)
    (hcmds : s.cmds = c :: rest) (hdec : decode c.word = .ok i) : step s = exec i (s.accept c rest) := by
  simp only [step, hidle, hcmds, hdec]

/-- An idle engine refuses a word the decoder refuses (R96). -/
theorem step_undecoded {s : State} {c : Command} {rest : List Command} {e : DecodeError} (hidle : s.phase = .idle)
    (hcmds : s.cmds = c :: rest) (hdec : decode c.word = .error e) : step s = .refused (.reservedEncoding e) := by
  simp only [step, hidle, hcmds, hdec]

/-- Settles O4. -/
theorem reservedWordsAreRefused : Obligations.ReservedWordsAreRefused := by
  intro s c rest hidle hcmds hres
  obtain ⟨e, hdec⟩ := decode_reservedWord hres
  exact ⟨e, step_undecoded hidle hcmds hdec⟩

/-- The checksum reads at most 8 bytes, so a length above 8 is as good as 8 (R212, R214). -/
theorem checksum_capped (data : List Byte) {n : Nat} (h : 8 ≤ n) (seed : Option Byte) :
    checksum data n seed = checksum data 8 seed := by
  rw [checksum, checksum, maxData, Nat.min_eq_right h, Nat.min_self]

/-- Settles O5. A word of READ_DATA or WRITE_DATA with such a length is reserved, so no operation's word. -/
theorem longPayloadLengthsAreReserved : Obligations.LongPayloadLengthsAreReserved := by
  intro s buf len seed hlong
  have hlen : ¬ lenOk len = true := fun h => Nat.not_lt.2 ((lenOk_iff len).1 h) hlong
  refine ⟨if_neg hlen, if_neg hlen, fun w hw hop i hdec => ?_, ?_⟩
  · have hres : reservedWord w := by
      refine .inr (.inr (.inr (.inl ⟨?_, hw.symm ▸ hlong⟩)))
      rcases hop with hop | hop <;> simp [hop]
    obtain ⟨e, herr⟩ := decode_reservedWord hres
    rw [herr] at hdec
    cases hdec
  · cases buf with
    | null => rfl
    | bank =>
      have h8 : (8 : BitVec 4).toNat = 8 := rfl
      simp only [exec, execCalcChecksum, checksum_capped _ (Nat.le_of_lt hlong), h8]

/-- Settles O6, by evaluation of the decoder on each word. -/
theorem writtenWordsDecode : Obligations.WrittenWordsDecode := by
  refine ⟨?_, ?_, ?_, ?_, ?_, ?_⟩ <;> decide

end Sys2Proof.Machine
end


section
/-! PROOFS. Runs of calls on a ring buffer (20_memory.md R64, R65, R67): first in, first out. -/

namespace Sys2Proof.Machine

/-- Settles O14. -/
theorem peekShowsTheOldestByte : Obligations.PeekShowsTheOldestByte := by
  intro n b hwf
  exact ⟨Ring.peek_content hwf, (Ring.peek_content hwf).trans (Ring.read_content hwf).1.symm⟩

/-- A write adds the byte to the content exactly when it is accepted (R62). -/
theorem Ring.content_append_write {n : Nat} {b : Ring} (h : b.wf n = true) (v : Byte) :
    b.content n ++ (if (b.write n v).1 then [v] else []) = (b.write n v).2.content n := by
  rw [Ring.write_content h, Ring.write_accepted]
  by_cases hfull : b.len = n <;> simp [hfull]

/-- A read takes from the front of the content what it returns (R63). -/
theorem Ring.toList_append_read {n : Nat} {b : Ring} (h : b.wf n = true) :
    (b.read n).1.toList ++ (b.read n).2.content n = b.content n := by
  obtain ⟨hbyte, hrest⟩ := Ring.read_content h
  rw [hbyte, hrest]
  cases b.content n <;> rfl

/-- Over any calls, what was held and then accepted is what is returned and then still held (R67); R60 is kept. -/
theorem Ring.run_content {n : Nat} (cs : List RingCall) {b : Ring} (h : b.wf n = true) :
    b.content n ++ (b.run n cs).1 = (b.run n cs).2.1 ++ (b.run n cs).2.2.content n ∧ (b.run n cs).2.2.wf n = true := by
  induction cs generalizing b with
  | nil => exact ⟨List.append_nil _, h⟩
  | cons c cs ih =>
    cases c with
    | write v =>
      obtain ⟨hcontent, hwf⟩ := ih (Ring.write_wf h v)
      refine ⟨?_, hwf⟩
      rw [Ring.run, ← List.append_assoc, Ring.content_append_write h]
      exact hcontent
    | read =>
      obtain ⟨hcontent, hwf⟩ := ih (Ring.read_wf h)
      refine ⟨?_, hwf⟩
      rw [Ring.run, List.append_assoc, ← hcontent, ← List.append_assoc, Ring.toList_append_read h]

/-- Settles O15, by induction on the calls. -/
theorem ringIsFirstInFirstOut : Obligations.RingIsFirstInFirstOut :=
  fun _ _ cs h => Ring.run_content cs h

/-- Clearing a buffer that satisfies R60 keeps R60. -/
theorem Ring.clear_wf_of_wf {n : Nat} {b : Ring} (h : b.wf n = true) : b.clear.wf n = true := by
  obtain ⟨hhead, -, -, -, hmem, haddr⟩ := (Ring.wf_iff n b).1 h
  exact Ring.clear_wf (Nat.zero_lt_of_lt hhead) hmem haddr

/-- Settles O16: the lengths of the two sides of R67, from an empty content. -/
theorem ringLengthCountsAcceptedCalls : Obligations.RingLengthCountsAcceptedCalls := by
  intro n b cs h
  obtain ⟨hcontent, hwf⟩ := Ring.run_content cs (Ring.clear_wf_of_wf h)
  obtain ⟨-, -, hle, -⟩ := (Ring.wf_iff n _).1 hwf
  have hlen := congrArg List.length hcontent
  rw [Ring.clear_content, List.nil_append, List.length_append, Ring.content_length] at hlen
  exact ⟨by omega, by omega, hle⟩

end Sys2Proof.Machine
end


section
/-! PROOFS. What a step and an operation answer, said once: the next state of each operation, and when it is not refused (R90, R97, R231, R262). The port of 30_encoding.md. -/

namespace Sys2Proof.Machine

/-! ### The next state of each operation -/

/-- The state SLEEP leaves (R234). -/
def State.goToSleep (force : Bool) (s : State) : State :=
  (((if force ∧ s.role = .host then s.sendSleepFrame else s).gpioWrite .cs .low).setDev .sleep).finish 0

/-- What WAKE sends: the wake byte on a Node with a TX line (R238). -/
def State.sendWake (s : State) : State :=
  if s.role = .node ∧ s.cfg.hasTx then (s.serialWrite wakeByte).serialFlush else s

/-- The state WAKE leaves (R238). -/
def State.wakeUp (s : State) : State := (((s.gpioWrite .cs .high).setDev .ready).sendWake).finish 0

/-- The state WRITE_HEADER leaves in either role (R190). -/
def State.writeHeader (id : Byte) (s : State) : State :=
  match s.role with
  | .node => s.raise .roleViolation
  | .host => (s.sendHeader id).finish 0

/-- The state WRITE_DATA leaves for an admitted length (R195). -/
def State.writePayload (buf : Buf) (len : BitVec 4) (s : State) : State :=
  match buf with
  | .null => s.raise .invalidArgument
  | .bank => (s.sendPayload (s.payload len)).finish (zext16 len.toNat)

/-- The state CALC_CHECKSUM leaves (R214). -/
def State.calcChecksum (buf : Buf) (len : BitVec 4) (seed : Option Byte) (s : State) : State :=
  match buf with
  | .null => s.raise .invalidArgument
  | .bank => s.finish (zext16 (checksum s.wdata.toList len.toNat seed).toNat)

/-- The state LIN_VERSION leaves (R242). -/
def State.accessLinVersion (write : Option Byte) (s : State) : State :=
  match write with
  | some v => State.finish (zext16 v.toNat) { s with linVersion := v }
  | none => s.finish (zext16 s.linVersion.toNat)

/-- The state an operation leaves if it is not refused. -/
def State.after (i : Instr) (s : State) : State :=
  match i with
  | .beginOp baud isHost => s.initialise baud isHost
  | .sleep force => s.goToSleep force
  | .wake => s.wakeUp
  | .available => s.availableBody.2.finish s.availableBody.1
  | .dataAvailable => s.finish (zext16 s.fb.len)
  | .waitForData size => s.readMillis.2.waitTurn size s.env.advance.millis s.waitLimit
  | .readId => s.readHeader
  | .readData buf len => s.readPayload buf len.toNat
  | .writeHeader id => s.writeHeader id
  | .writeData buf len => s.writePayload buf len
  | .calcChecksum buf len seed => s.calcChecksum buf len seed
  | .calcIdParity id => s.finish (zext16 (calcIdParity id).toNat)
  | .dataLengthCode pid => s.finish (zext16 (dataLengthOf pid))
  | .linVersion write => s.accessLinVersion write

/-- An operation that is not refused: a length of R97, a BEGIN in its domain (R231), after BEGIN where R262 asks for it. -/
def State.Runs (i : Instr) (s : State) : Prop :=
  match i with
  | .beginOp baud isHost => baudOk baud = true ∧ ¬ (isHost = true ∧ s.cfg.hasTx = false)
  | .readData _ len => lenOk len = true ∧ s.devState ≠ .powerOnReset
  | .writeData _ len => lenOk len = true ∧ s.devState ≠ .powerOnReset
  | .calcChecksum _ _ _ => True
  | .calcIdParity _ => True
  | .dataLengthCode _ => True
  | .linVersion _ => True
  | _ => s.devState ≠ .powerOnReset

theorem next_eq_next_iff {u t : State} : (Host.Outcome.next u : Out) = .next t ↔ True ∧ u = t := by simp

/-- An operation answers a next state exactly when it is not refused, and then the one of `State.after`. -/
theorem exec_eq_next_iff {i : Instr} {s t : State} : exec i s = .next t ↔ s.Runs i ∧ s.after i = t := by
  cases i with
  | beginOp baud isHost =>
    simp only [exec, execBegin, State.Runs, State.after]
    split
    · split <;> simp_all
    · simp_all
  | readData buf len | writeData buf len =>
    simp only [exec, execReadData, execWriteData, State.Runs, State.after]
    split
    · simp only [*, true_and]; exact State.afterBegin_next
    · simp_all
  | linVersion write => cases write <;> exact next_eq_next_iff
  | calcChecksum | calcIdParity | dataLengthCode => exact next_eq_next_iff
  | _ => exact State.afterBegin_next

theorem exec_of_runs {i : Instr} {s : State} (h : s.Runs i) : exec i s = .next (s.after i) :=
  exec_eq_next_iff.2 ⟨h, rfl⟩

theorem State.runs_of_begun {i : Instr} {s : State} (hwf : i.wellFormed = true) (h : s.devState ≠ .powerOnReset)
    (hbegin : ∀ baud isHost, i ≠ .beginOp baud isHost) : s.Runs i := by
  cases i with
  | beginOp baud isHost => exact absurd rfl (hbegin baud isHost)
  | readData | writeData => exact ⟨hwf, h⟩
  | calcChecksum | calcIdParity | dataLengthCode | linVersion => trivial
  | _ => exact h

/-- An operation that runs in PowerOnReset is one of the five R262 admits. -/
theorem State.Runs.begun_or_admitted {i : Instr} {s : State} (h : s.Runs i) :
    s.devState ≠ .powerOnReset ∨ admittedAtReset i := by
  cases i with
  | beginOp | calcChecksum | calcIdParity | dataLengthCode | linVersion => exact .inr trivial
  | readData | writeData => exact .inl h.2
  | _ => exact .inl h

/-- BEGIN's domain in the words of R231. -/
theorem State.runs_beginOp_iff {s : State} {baud : BitVec 20} {isHost : Bool} : s.Runs (.beginOp baud isHost) ↔
    (1 ≤ baud.toNat ∧ baud.toNat ≤ 1000000) ∧ (isHost = true → s.cfg.hasTx = true) := by
  simp [State.Runs, baudOk]

/-- Settles O47. -/
theorem everyOperationCompletesAfterBegin : Obligations.EveryOperationCompletesAfterBegin := by
  intro i s hwf hbegun hdomain
  suffices hruns : s.Runs i from ⟨_, exec_of_runs hruns⟩
  by_cases hbegin : ∃ baud isHost, i = .beginOp baud isHost
  case pos =>
    obtain ⟨baud, isHost, rfl⟩ := hbegin
    obtain ⟨hlow, hhigh, htx⟩ := hdomain baud isHost rfl
    exact State.runs_beginOp_iff.2 ⟨⟨hlow, hhigh⟩, htx⟩
  case neg => exact State.runs_of_begun hwf hbegun fun baud isHost h => hbegin ⟨baud, isHost, h⟩

/-- Settles O37. An operation that is not admitted is refused by the gate; an admitted one runs, or is a BEGIN refused for
its operands. -/
theorem onlyFiveOperationsRunBeforeBegin : Obligations.OnlyFiveOperationsRunBeforeBegin := by
  intro i s hwf hreset
  have hgate : ∀ k : Out, s.afterBegin k = .refused .beforeBegin := State.afterBegin_reset hreset
  cases i with
  | beginOp baud isHost =>
    refine iff_of_false ?_ (not_not_intro trivial)
    simp only [exec, execBegin]
    split
    · split <;> simp
    · simp
  | calcChecksum | calcIdParity | dataLengthCode => exact iff_of_false nofun (not_not_intro trivial)
  | linVersion write => cases write <;> exact iff_of_false nofun (not_not_intro trivial)
  | readData | writeData => exact iff_of_true ((if_pos hwf).trans (hgate _)) id
  | _ => exact iff_of_true (hgate _) id

/-! ### A step -/

/-- Everything a step that is not refused can do: wait for a command, run one, or take a turn of the wait (R90, R182,
R290). -/
theorem step_cases {s t : State} (h : step s = .next t) :
    (s.phase = .idle ∧ s.cmds = [] ∧ t = s.endPulse) ∨
    (∃ c rest i, s.phase = .idle ∧ s.cmds = c :: rest ∧ decode c.word = .ok i ∧ exec i (s.accept c rest) = .next t) ∨
    (∃ size t0 limit, s.phase = .waitLoop size t0 limit ∧ t = s.endPulse.waitTurn size t0 limit) := by
  cases hphase : s.phase with
  | waitLoop size t0 limit =>
    simp only [step, hphase, Host.Outcome.next.injEq] at h
    exact .inr (.inr ⟨size, t0, limit, rfl, h.symm⟩)
  | idle =>
    cases hcmds : s.cmds with
    | nil =>
      simp only [step, hphase, hcmds, Host.Outcome.next.injEq] at h
      exact .inl ⟨rfl, rfl, h.symm⟩
    | cons c rest =>
      cases hdec : decode c.word with
      | error e => rw [step_undecoded hphase hcmds hdec] at h; cases h
      | ok i => rw [step_decoded hphase hcmds hdec] at h; exact .inr (.inl ⟨c, rest, i, rfl, rfl, hdec, h⟩)

theorem step_waitLoop {s : State} {size : Byte} {t0 : Time} {limit : Nat} (h : s.phase = .waitLoop size t0 limit) :
    step s = .next (s.endPulse.waitTurn size t0 limit) := by
  simp only [step, h]

theorem State.busy_iff {s : State} : s.busy = true ↔ ∃ size t0 limit, s.phase = .waitLoop size t0 limit := by
  unfold State.busy
  split <;> simp_all

/-- Settles O7. -/
theorem stepRunsTheDecodedCommand : Obligations.StepRunsTheDecodedCommand :=
  fun _ _ _ _ hidle hcmds hdec => step_decoded hidle hcmds hdec

theorem step_idle_waits {s : State} (hidle : s.phase = .idle) (hcmds : s.cmds = []) : step s = .next s.endPulse := by
  simp only [step, hidle, hcmds]

/-- Settles O8. -/
theorem idleEngineWaits : Obligations.IdleEngineWaits :=
  fun _ hidle hcmds => step_idle_waits hidle hcmds

/-! ### What ends, and what goes on -/

/-- The operation is over: the engine is idle and the response pulsed (R251, R252). -/
def State.Ended (t : State) : Prop := t.busy = false ∧ t.rspValid = true

theorem State.finish_ended (r : Result) (s : State) : (s.finish r).Ended := ⟨rfl, rfl⟩

/-- What READ_ID can do: fail with everything as before, uncount and drop one byte, or drop the marker and a second byte
too (R160, R162). -/
theorem State.readHeader_cases (s : State) : (∃ r, s.readHeader = s.finish r) ∨
    (∃ r, s.readHeader = s.uncountDrop.finish r) ∨ ∃ r, s.readHeader = s.uncountDrop.spDrop.fbDrop.finish r := by
  rcases Nat.lt_or_ge s.fb.len 3 with hshort | hlen
  · exact .inl ⟨_, State.readHeader_notReady hshort⟩
  · rw [State.readHeader_ready hlen, State.readPid_eq]
    split
    · exact .inr (.inr ⟨_, rfl⟩)
    · exact .inr (.inl ⟨_, rfl⟩)

/-- What READ_DATA can do: fail with everything as before, take the bytes and fail, or copy them too (R170 to R174). -/
theorem State.readPayload_cases (buf : Buf) (len : Nat) (s : State) : (∃ r, s.readPayload buf len = s.finish r) ∨
    (∃ r, s.readPayload buf len = (s.popPayload len).finish r) ∨
    ∃ d r, s.readPayload buf len = State.finish r { s.popPayload len with rdata := d } := by
  cases buf with
  | null => exact .inl ⟨_, rfl⟩
  | bank =>
    simp only [State.readPayload, State.checkPayload]
    split
    · exact .inl ⟨_, rfl⟩
    · split
      · exact .inr (.inr ⟨_, _, rfl⟩)
      · exact .inr (.inl ⟨_, rfl⟩)

/-- READ_ID makes no call and touches no pin (R160, R266). -/
theorem State.readHeader_outside (s : State) :
    s.readHeader.trace = s.trace ∧ s.readHeader.pins = s.pins ∧ s.readHeader.env = s.env := by
  rcases s.readHeader_cases with ⟨r, h⟩ | ⟨r, h⟩ | ⟨r, h⟩ <;> (rw [h]; simp [State.uncountDrop])

/-- READ_DATA makes no call and touches no pin (R170, R266). -/
theorem State.readPayload_outside (buf : Buf) (len : Nat) (s : State) :
    (s.readPayload buf len).trace = s.trace ∧ (s.readPayload buf len).pins = s.pins ∧
      (s.readPayload buf len).env = s.env := by
  rcases s.readPayload_cases buf len with ⟨r, h⟩ | ⟨r, h⟩ | ⟨d, r, h⟩ <;> (rw [h]; exact ⟨rfl, rfl, rfl⟩)

theorem State.readHeader_ended (s : State) : s.readHeader.Ended := by
  rcases s.readHeader_cases with ⟨r, h⟩ | ⟨r, h⟩ | ⟨r, h⟩ <;> (rw [h]; exact State.finish_ended _ _)

theorem State.readPayload_ended (buf : Buf) (len : Nat) (s : State) : (s.readPayload buf len).Ended := by
  rcases s.readPayload_cases buf len with ⟨r, h⟩ | ⟨r, h⟩ | ⟨d, r, h⟩ <;> (rw [h]; exact State.finish_ended _ _)

/-- A turn of the wait ends it, or it goes on with its own operands (R180). -/
theorem State.waitTurn_ended_or (s : State) (size : Byte) (t0 : Time) (limit : Nat) :
    (s.waitTurn size t0 limit).Ended ∨ (s.waitTurn size t0 limit).phase = .waitLoop size t0 limit := by
  rcases s.waitTurn_cases size t0 limit with henough | hlate | hpoll
  · rw [henough]; exact .inl (State.finish_ended _ _)
  · rw [hlate]; exact .inl (State.finish_ended _ _)
  · rw [hpoll]; exact .inr rfl

/-- Settles O10. -/
theorem endedOperationsLeaveTheEngineIdle : Obligations.EndedOperationsLeaveTheEngineIdle := by
  intro i s t h
  obtain ⟨-, rfl⟩ := exec_eq_next_iff.1 h
  cases i with
  | waitForData size => exact (s.readMillis.2.waitTurn_ended_or size _ _).imp id fun hphase => ⟨size, rfl, hphase⟩
  | readId => exact .inl s.readHeader_ended
  | readData buf len => exact .inl (s.readPayload_ended buf _)
  | writeHeader id => exact .inl (by simp only [State.after, State.writeHeader]; split <;> exact State.finish_ended _ _)
  | writeData buf len => cases buf <;> exact .inl (State.finish_ended _ _)
  | calcChecksum buf len seed => cases buf <;> exact .inl (State.finish_ended _ _)
  | linVersion write => cases write <;> exact .inl (State.finish_ended _ _)
  | _ => exact .inl (State.finish_ended _ _)

/-! ### The registers that most operations leave alone -/

/-- `t` has the configuration, the port and the registers of `s` that only BEGIN, LIN_VERSION and READ_DATA write. -/
structure State.RegsKept (s t : State) : Prop where
  cfg : t.cfg = s.cfg
  role : t.role = s.role
  baud : t.baud = s.baud
  bitUs : t.bitUs = s.bitUs
  linVersion : t.linVersion = s.linVersion
  scratch : t.scratch = s.scratch
  wdata : t.wdata = s.wdata
  rdata : t.rdata = s.rdata
  cmds : t.cmds = s.cmds

theorem State.PollFrame.regsKept {s t : State} (h : s.PollFrame t) : s.RegsKept t :=
  ⟨h.cfg, h.role, h.baud, h.bitUs, h.linVersion, h.scratch, h.wdata, h.rdata, h.cmds⟩

theorem State.SendFrame.regsKept {s t : State} (h : s.SendFrame t) : s.RegsKept t :=
  ⟨h.cfg, h.role, h.baud, h.bitUs, h.linVersion, h.scratch, h.wdata, h.rdata, h.cmds⟩

/-- Ending an operation writes none of them. -/
theorem State.RegsKept.finish {s t : State} (h : s.RegsKept t) (r : Result) : s.RegsKept (t.finish r) :=
  ⟨h.cfg, h.role, h.baud, h.bitUs, h.linVersion, h.scratch, h.wdata, h.rdata, h.cmds⟩

theorem State.RegsKept.refl (s : State) : s.RegsKept s := (State.PollFrame.refl s).regsKept

theorem State.waitTurn_regsKept (s : State) (size : Byte) (t0 : Time) (limit : Nat) :
    s.RegsKept (s.waitTurn size t0 limit) := by
  rcases s.waitTurn_cases size t0 limit with henough | hlate | hpoll
  · rw [henough]; exact (State.RegsKept.refl s).finish 1
  · rw [hlate]; exact State.RegsKept.finish (by constructor <;> rfl) 0
  · rw [hpoll]
    obtain ⟨⟩ := s.readMillis.2.availableBody_frame.regsKept
    constructor <;> assumption

/-- Settles O9. A wait in progress is `State.waitTurn`, and that does not read the commands. -/
theorem busyEngineSeesNoCommand : Obligations.BusyEngineSeesNoCommand := by
  intro s cs hbusy
  obtain ⟨size, t0, limit, hphase⟩ := State.busy_iff.1 hbusy
  have hkept := s.endPulse.waitTurn_regsKept size t0 limit
  refine ⟨by rw [State.cmdReady, hbusy]; rfl, _, step_waitLoop hphase, hkept.cmds, hkept.wdata, ?_⟩
  rw [step_waitLoop (s := { s with cmds := cs }) hphase]
  refine congrArg _ ((State.waitTurn_around cs s.linVersion s.endPulse size t0 limit).trans ?_)
  exact congrArg (fun v => { s.endPulse.waitTurn size t0 limit with cmds := cs, linVersion := v })
    hkept.linVersion.symm

/-! ### The banks at the port (R70, R90) -/

/-- One more byte of a bank's port value, under the bytes after it (R70). -/
def packByte (v : Byte) (acc : BitVec 64) : BitVec 64 := acc <<< 8 ||| v.zeroExtend 64

theorem extractLsb'_packByte_zero (v : Byte) (acc : BitVec 64) : (packByte v acc).extractLsb' 0 8 = v := by
  apply BitVec.eq_of_getLsbD_eq
  intro i hi
  have hin : i < 64 := by omega
  simp [packByte, hi, hin]

theorem extractLsb'_packByte_succ (v : Byte) (acc : BitVec 64) {i : Nat} (h : i < 7) :
    (packByte v acc).extractLsb' (8 * (i + 1)) 8 = acc.extractLsb' (8 * i) 8 := by
  apply BitVec.eq_of_getLsbD_eq
  intro j hj
  have hin : 8 * (i + 1) + j < 64 := by omega
  have hlow : ¬ 8 * (i + 1) + j < 8 := by omega
  have hsub : 8 * (i + 1) + j - 8 = 8 * i + j := by omega
  simp only [packByte, BitVec.getLsbD_extractLsb', BitVec.getLsbD_or, BitVec.getLsbD_shiftLeft, BitVec.getLsbD_setWidth,
    BitVec.getLsbD_of_ge v _ (Nat.not_lt.1 hlow), hin, hlow, hsub, decide_true, decide_false, Bool.not_false, Bool.true_and,
    Bool.and_false, Bool.or_false]

/-- Packing up to eight bytes puts byte `i` at bits `8i+7 .. 8i`. -/
theorem extractLsb'_foldr_packByte {l : List Byte} {i : Nat} (hi : i < l.length) (hl : l.length ≤ 8) :
    (l.foldr packByte 0).extractLsb' (8 * i) 8 = l[i] := by
  induction l generalizing i with
  | nil => cases hi
  | cons v l ih =>
    rw [List.length_cons] at hi hl
    cases i with
    | zero => exact extractLsb'_packByte_zero v _
    | succ i => exact (extractLsb'_packByte_succ v _ (by omega)).trans (ih (by omega) (by omega))

/-- Settles O11. -/
theorem portPacksTheBanks : Obligations.PortPacksTheBanks := by
  intro b i h
  exact (extractLsb'_foldr_packByte (l := b.toList) (by simpa using h) (by simp)).trans (by simp)

end Sys2Proof.Machine
end


section
/-! PROOFS. The collaborator calls (60_exceptions.md R266): which operation makes which, and the pins as shadows of the trace (10_state.md R37). -/

namespace Sys2Proof.Machine

/-! ### Appending calls to the trace -/

/-- `t` is `s` after calls that satisfy `P`: they are appended to the trace, and the pins follow them (R15, R37). -/
def State.Calls (P : Event → Prop) (s t : State) : Prop :=
  ∃ calls, t.trace = s.trace ++ calls ∧ t.pins = calls.foldl Pins.note s.pins ∧ ∀ e ∈ calls, P e

section
variable {P : Event → Prop} {s t u : State}

theorem State.Calls.of_same (htrace : t.trace = s.trace) (hpins : t.pins = s.pins) : s.Calls P t :=
  ⟨[], by simp [htrace], hpins, nofun⟩

theorem State.Calls.trans (a : s.Calls P t) (b : t.Calls P u) : s.Calls P u := by
  obtain ⟨x, hx, px, qx⟩ := a
  obtain ⟨y, hy, py, qy⟩ := b
  refine ⟨x ++ y, by rw [hy, hx, List.append_assoc], by rw [List.foldl_append, py, px], fun e he => ?_⟩
  exact (List.mem_append.1 he).elim (qx e) (qy e)

theorem State.Calls.one {e : Event} (htrace : t.trace = s.trace ++ [e]) (hpins : t.pins = s.pins.note e) (h : P e) :
    s.Calls P t :=
  ⟨[e], htrace, hpins, by simpa using h⟩

theorem State.Calls.mono {Q : Event → Prop} (a : s.Calls P t) (h : ∀ e, P e → Q e) : s.Calls Q t := by
  obtain ⟨x, hx, px, qx⟩ := a
  exact ⟨x, hx, px, fun e he => h e (qx e he)⟩

/-- What follows the calls and touches neither the trace nor the pins. -/
theorem State.Calls.then_same (a : s.Calls P t) (htrace : u.trace = t.trace) (hpins : u.pins = t.pins) : s.Calls P u :=
  a.trans (.of_same htrace hpins)

end

/-! ### The calls of a poll (R141, R143, R146) -/

/-- The calls a Node's poll makes. -/
def pollCall : Event → Prop
  | .gpioRead .rx _ => True
  | .micros _ => True
  | .serialCount _ => True
  | .serialRead _ => True
  | _ => False

theorem State.edge_calls (s : State) : s.Calls pollCall s.edge := by
  by_cases h : s.env.advance.rxLevel = s.det.lastLevel
  · rw [State.edge_same h]
    exact .one (s.gpioReadRx_trace) rfl trivial
  · rw [State.edge_change h]
    exact (State.Calls.one (t := s.gpioReadRx.2) rfl rfl trivial).trans (.one rfl rfl trivial)

theorem State.drainTurn_calls (b : Byte) (q : List Byte) (s : State) : s.Calls pollCall (s.drainTurn b q) :=
  (State.Calls.one (t := s.serialCount.2) rfl rfl trivial).trans (.one rfl rfl trivial)

theorem State.drain_calls (s : State) : s.Calls pollCall s.drain :=
  State.drainLoop_induct (P := fun _ s t => s.Calls pollCall t) (fun _ => .of_same rfl rfl)
    (fun _ _ _ => .one rfl rfl trivial) (fun _ s b q _ _ h => (s.drainTurn_calls b q).trans h) _ _

theorem State.poll_calls (s : State) : s.Calls pollCall s.poll :=
  (s.edge_calls.trans s.edge.drain_calls).then_same (State.matchRemnant_outside _).1 (State.matchRemnant_pollFrame _).pins

/-- Who may call what in a poll of a wait or an AVAILABLE: the table of R266. -/
theorem mayCall_of_pollCall {i : Instr} {s : State} (hi : i = .available ∨ ∃ size, i = .waitForData size)
    (hrole : s.role = .node) (e : Event) (h : pollCall e) : mayCall i s e := by
  cases e with
  | gpioRead p l => cases p <;> simp_all [pollCall, mayCall]
  | micros | serialCount | serialRead => simp_all [mayCall]
  | _ => exact h.elim

theorem State.availableBody_calls {i : Instr} (hi : i = .available ∨ ∃ size, i = .waitForData size) (s : State) :
    s.Calls (mayCall i s) s.availableBody.2 := by
  cases hrole : s.role with
  | host =>
    simp only [State.availableBody, hrole]
    exact .one rfl rfl hi
  | node =>
    simp only [State.availableBody, hrole]
    exact s.poll_calls.mono (mayCall_of_pollCall hi hrole)

/-- The calls of one turn of the wait: at most the clock and a poll (R180). -/
theorem State.waitTurn_calls (s : State) (size : Byte) (t0 : Time) (limit : Nat) :
    s.Calls (mayCall (.waitForData size) s) (s.waitTurn size t0 limit) := by
  have hmillis : s.Calls (mayCall (.waitForData size) s) s.readMillis.2 := .one rfl rfl ⟨size, rfl⟩
  rcases s.waitTurn_cases size t0 limit with henough | hlate | hpoll
  · rw [henough]; exact .of_same rfl rfl
  · rw [hlate]; exact hmillis.then_same rfl rfl
  · rw [hpoll]
    exact hmillis.trans ((s.readMillis.2.availableBody_calls (.inr ⟨size, rfl⟩)).then_same rfl rfl)

/-! ### The calls of a transmission (R190, R195) -/

/-- The calls that send a payload. -/
def payloadCall : Event → Prop
  | .serialWrite _ => True
  | .serialFlush => True
  | .delayUs _ => True
  | _ => False

/-- The calls that send a header: those of a payload, and the ones that take the TX line and give it back. -/
def headerCall (e : Event) : Prop :=
  payloadCall e ∨ e = .serialTxStop ∨ e = .serialRestart ∨ ∃ l, e = .gpioWrite .tx l

theorem State.sendHeader_calls (id : Byte) (s : State) : s.Calls headerCall (s.sendHeader id) := by
  refine ⟨_, State.sendHeader_trace id s, State.sendHeader_pins id s, ?_⟩
  simp [headerEvents, headerCall, payloadCall]

theorem State.sendByte_calls (s : State) (b : Byte) : s.Calls payloadCall (s.sendByte b) :=
  (State.Calls.one (t := s.serialWrite b) rfl rfl trivial).trans (.one rfl rfl trivial)

theorem State.sendBytes_calls (data : List Byte) (s : State) : s.Calls payloadCall (data.foldl State.sendByte s) := by
  induction data generalizing s with
  | nil => exact .of_same rfl rfl
  | cons b data ih =>
    rw [List.foldl_cons]
    exact (s.sendByte_calls b).trans (ih (s.sendByte b))

theorem State.sendPayload_calls (data : List Byte) (s : State) : s.Calls payloadCall (s.sendPayload data) :=
  ((State.sendBytes_calls data s).trans (State.Calls.one (t := State.serialWrite _ _) rfl rfl trivial)).trans
    (.one rfl rfl trivial)

theorem State.sendSleepFrame_calls (s : State) : s.Calls headerCall s.sendSleepFrame :=
  (s.sendHeader_calls sleepId).trans ((State.sendPayload_calls _ _).mono fun _ => .inl)

/-! ### Each operation's calls -/

theorem mayCall_writeData {buf : Buf} {len : BitVec 4} {s : State} (e : Event) (h : payloadCall e) :
    mayCall (.writeData buf len) s e := by
  cases e with
  | serialWrite | serialFlush | delayUs => simp [mayCall]
  | _ => exact h.elim

theorem mayCall_of_headerCall {i : Instr} {s : State} (hi : (∃ id, i = .writeHeader id) ∨ (i = .sleep true ∧ s.role = .host))
    (e : Event) (h : headerCall e) : mayCall i s e := by
  rcases h with h | rfl | rfl | ⟨l, rfl⟩
  · cases e with
    | serialWrite | serialFlush | delayUs => rcases hi with ⟨id, rfl⟩ | ⟨rfl, hrole⟩ <;> simp [mayCall, *]
    | _ => exact h.elim
  · exact hi
  · exact hi
  · exact hi

/-- BEGIN's calls: the pin directions, the start of the serial peripheral, CS (R230). -/
theorem State.initialise_calls (baud : BitVec 20) (isHost : Bool) (s : State) :
    s.Calls (mayCall (.beginOp baud isHost) s) (s.initialise baud isHost) := by
  have hpin (p : Pin) (m : PinMode) (t : State) : t.Calls (mayCall (.beginOp baud isHost) s) (t.setPinMode p m) :=
    .one rfl rfl ⟨baud, isHost, rfl⟩
  have hserial (t : State) : t.Calls (mayCall (.beginOp baud isHost) s) (t.serialBegin baud) :=
    .one rfl rfl ⟨baud, isHost, rfl⟩
  have hconf : s.Calls (mayCall (.beginOp baud isHost) s) (s.setLink baud isHost).configure := by
    have hlink : s.Calls (mayCall (.beginOp baud isHost) s) (s.setLink baud isHost) := .of_same rfl rfl
    refine (hlink.trans ((hpin .rx .input _).trans (hpin .cs .output _))).trans (State.Calls.trans ?_ (hserial _))
    split
    · exact hpin .tx .output _
    · exact .of_same rfl rfl
  exact (hconf.trans (.one (t := State.gpioWrite .cs .high _) rfl rfl (.inl ⟨baud, isHost, rfl⟩))).then_same rfl rfl

theorem State.goToSleep_calls (force : Bool) (s : State) : s.Calls (mayCall (.sleep force) s) (s.goToSleep force) := by
  have hframe : s.Calls (mayCall (.sleep force) s) (if force ∧ s.role = .host then s.sendSleepFrame else s) := by
    split
    · rename_i h
      obtain ⟨rfl, hrole⟩ := h
      exact s.sendSleepFrame_calls.mono (mayCall_of_headerCall (.inr ⟨rfl, hrole⟩))
    · exact .of_same rfl rfl
  exact (hframe.trans (.one (t := State.gpioWrite .cs .low _) rfl rfl (.inr (.inl ⟨force, rfl⟩)))).then_same rfl rfl

theorem State.wakeUp_calls (s : State) : s.Calls (mayCall .wake s) s.wakeUp := by
  have hcs : s.Calls (mayCall .wake s) ((s.gpioWrite .cs .high).setDev .ready) := .one rfl rfl (.inr (.inr rfl))
  refine (hcs.trans ?_).then_same (t := State.sendWake _) rfl rfl
  unfold State.sendWake
  split
  · rename_i h
    exact (State.Calls.one (t := State.serialWrite wakeByte _) rfl rfl (.inr (.inr (.inr ⟨rfl, h⟩)))).trans
      (.one rfl rfl (.inr (.inr (.inr ⟨rfl, h⟩))))
  · exact .of_same rfl rfl

/-- Every operation makes only the calls the table of R266 gives it. -/
theorem State.after_calls (i : Instr) (s : State) : s.Calls (mayCall i s) (s.after i) := by
  cases i with
  | beginOp baud isHost => exact s.initialise_calls baud isHost
  | sleep force => exact s.goToSleep_calls force
  | wake => exact s.wakeUp_calls
  | available => exact (s.availableBody_calls (.inl rfl)).then_same rfl rfl
  | waitForData size =>
    exact (State.Calls.one (t := s.readMillis.2) rfl rfl ⟨size, rfl⟩).trans (s.readMillis.2.waitTurn_calls size _ _)
  | readId =>
    obtain ⟨htrace, hpins, -⟩ := s.readHeader_outside
    exact .of_same htrace hpins
  | readData buf len =>
    obtain ⟨htrace, hpins, -⟩ := s.readPayload_outside buf len.toNat
    exact .of_same htrace hpins
  | writeHeader id =>
    cases hrole : s.role with
    | node => simp only [State.after, State.writeHeader, hrole]; exact .of_same rfl rfl
    | host =>
      simp only [State.after, State.writeHeader, hrole]
      exact ((s.sendHeader_calls id).mono (mayCall_of_headerCall (.inl ⟨id, rfl⟩))).then_same rfl rfl
  | writeData buf len =>
    cases buf with
    | null => exact .of_same rfl rfl
    | bank => exact ((State.sendPayload_calls _ s).mono mayCall_writeData).then_same rfl rfl
  | calcChecksum buf len seed => cases buf <;> exact .of_same rfl rfl
  | linVersion write => cases write <;> exact .of_same rfl rfl
  | _ => exact .of_same rfl rfl

theorem exec_calls {i : Instr} {s t : State} (h : exec i s = .next t) : s.Calls (mayCall i s) t := by
  obtain ⟨-, rfl⟩ := exec_eq_next_iff.1 h
  exact s.after_calls i

/-- Settles O50. -/
theorem callsFollowTheCollaboratorTable : Obligations.CallsFollowTheCollaboratorTable := by
  refine ⟨fun i s t h => ?_, fun s t size t0 limit hphase h => ?_⟩
  · obtain ⟨calls, htrace, -, hmay⟩ := exec_calls h
    exact ⟨calls, htrace, hmay⟩
  · rw [step_waitLoop hphase] at h
    cases h
    obtain ⟨calls, htrace, -, hmay⟩ := s.endPulse.waitTurn_calls size t0 limit
    exact ⟨calls, htrace, hmay⟩

/-! ### The pins as shadows of the trace (R37) -/

/-- Whatever it does, a step leaves the pins as its calls leave them. -/
theorem step_calls {s t : State} (h : step s = .next t) : s.Calls (fun _ => True) t := by
  rcases step_cases h with ⟨-, -, rfl⟩ | ⟨c, rest, i, -, -, -, hexec⟩ | ⟨size, t0, limit, -, rfl⟩
  · exact .of_same rfl rfl
  · exact (State.Calls.of_same (t := s.accept c rest) rfl rfl).trans ((exec_calls hexec).mono fun _ _ => trivial)
  · exact (State.Calls.of_same (t := s.endPulse) rfl rfl).trans
      ((State.waitTurn_calls _ size t0 limit).mono fun _ _ => trivial)

/-- The last event that says something is the one just appended, if it says something. -/
theorem lastOf_append_singleton {α : Type} (f : Event → Option α) (trace : List Event) (e : Event) :
    lastOf f (trace ++ [e]) = (f e).or (lastOf f trace) := by
  simp only [lastOf, List.reverse_append, List.reverse_singleton, List.singleton_append, List.findSome?_cons]
  cases f e <;> rfl

/-- One call moves the pins as it moves the trace. -/
theorem State.PinsShadowTrace.emit {s : State} (h : s.PinsShadowTrace) (e : Event) : (s.emit e).PinsShadowTrace := by
  obtain ⟨hcs, htx, hrx, hmtx, hmcs, howner⟩ := h
  cases e with
  | pinMode p m => cases p <;> constructor <;> simp [lastOf_append_singleton] <;> assumption
  | gpioWrite p l => cases p <;> constructor <;> simp [lastOf_append_singleton] <;> assumption
  | _ => constructor <;> simp [lastOf_append_singleton] <;> assumption

/-- The shadows are of the trace and the pins alone. -/
theorem State.PinsShadowTrace.congr {s t : State} (h : s.PinsShadowTrace) (htrace : t.trace = s.trace)
    (hpins : t.pins = s.pins) : t.PinsShadowTrace := by
  obtain ⟨hcs, htx, hrx, hmtx, hmcs, howner⟩ := h
  constructor <;> rw [htrace, hpins] <;> assumption

/-- Any calls keep the pins shadows of the trace. -/
theorem State.PinsShadowTrace.calls {P : Event → Prop} {s t : State} (h : s.PinsShadowTrace) (hcalls : s.Calls P t) :
    t.PinsShadowTrace := by
  obtain ⟨calls, htrace, hpins, -⟩ := hcalls
  induction calls generalizing s with
  | nil => exact h.congr (by simpa using htrace) hpins
  | cons e calls ih => exact ih (h.emit e) (by simp [htrace]) hpins

/-- Settles O56. -/
theorem pinsShadowTheTrace : Obligations.PinsShadowTheTrace :=
  ⟨fun _ _ => ⟨nofun, nofun, rfl, rfl, rfl, nofun⟩, fun _ _ h hstep => h.calls (step_calls hstep)⟩

end Sys2Proof.Machine
end


section
/-! PROOFS. What each operation leaves alone: who writes which register (10_state.md sections 2 to 6), and that LIN_VERSION is informational (R2). -/

namespace Sys2Proof.Machine

/-! ### READ_ID and READ_DATA -/

theorem State.readHeader_regsKept (s : State) : s.RegsKept s.readHeader := by
  rcases s.readHeader_cases with ⟨r, h⟩ | ⟨r, h⟩ | ⟨r, h⟩ <;> (rw [h]; constructor <;> simp [State.uncountDrop])

/-- READ_ID leaves the detection state alone but for the counter (R160). -/
theorem State.readHeader_det (s : State) : s.readHeader.det = { s.det with breakCount := s.readHeader.det.breakCount } := by
  rcases s.readHeader_cases with ⟨r, h⟩ | ⟨r, h⟩ | ⟨r, h⟩ <;> (rw [h]; rfl)

/-- READ_DATA writes, of the registers, `scratch` and `RDATA` only (R170). -/
theorem State.readPayload_regsKept (buf : Buf) (len : Nat) (s : State) :
    State.RegsKept { s with scratch := (s.readPayload buf len).scratch, rdata := (s.readPayload buf len).rdata }
      (s.readPayload buf len) := by
  rcases s.readPayload_cases buf len with ⟨r, h⟩ | ⟨r, h⟩ | ⟨d, r, h⟩ <;> (rw [h]; constructor <;> rfl)

/-! ### The transmissions -/

theorem State.goToSleep_sendFrame (force : Bool) (s : State) :
    s.SendFrame (if force ∧ s.role = .host then s.sendSleepFrame else s) := by
  split
  · exact s.sendSleepFrame_frame
  · exact .refl s

theorem State.sendWake_frame (s : State) : s.SendFrame s.sendWake := by
  unfold State.sendWake
  split
  · constructor <;> simp
  · exact .refl s

/-- The state the set-up of BEGIN leaves, field by field (R230 steps 2 to 5). -/
theorem State.configure_eq (s : State) : s.configure = { s with
    trace := s.trace ++ ([.pinMode .rx .input, .pinMode .cs .output] ++
      (if s.cfg.hasTx then [.pinMode .tx .output] else []) ++ [.serialBegin s.baud])
    pins := { s.pins with modeRx := .input, modeCs := .output,
                          modeTx := if s.cfg.hasTx then .output else s.pins.modeTx, txOwner := .serial }
    env := s.env.peripheral } := by
  rw [← State.configure_trace, ← State.configure_pins, ← State.configure_env]
  exact s.configure_frame.eq_with

/-- The state BEGIN leaves, field by field (R230). -/
theorem State.initialise_eq (baud : BitVec 20) (isHost : Bool) (s : State) : s.initialise baud isHost = { s with
    role := if isHost then .host else .node
    baud := baud
    bitUs := bitPeriod baud
    trace := s.trace ++ ([.pinMode .rx .input, .pinMode .cs .output] ++
      (if s.cfg.hasTx then [.pinMode .tx .output] else []) ++ [.serialBegin baud, .gpioWrite .cs .high])
    pins := { s.pins with modeRx := .input, modeCs := .output,
                          modeTx := if s.cfg.hasTx then .output else s.pins.modeTx,
                          txOwner := .serial, csLevel := .high }
    fb := s.fb.clear
    sp := s.sp.clear
    det := Detector.cleared
    devState := .ready
    env := s.env.peripheral, result := 0, phase := .idle, rspValid := true } := by
  rw [State.initialise, State.configure_eq]
  ext1
  case trace => simp; rfl
  all_goals rfl

/-! ### Registers -/

/-- Every operation but BEGIN, LIN_VERSION and READ_DATA leaves the registers alone. -/
theorem State.after_regsKept {i : Instr} (s : State) (hbegin : ∀ baud isHost, i ≠ .beginOp baud isHost)
    (hlin : ∀ w, i ≠ .linVersion w) (hread : ∀ buf len, i ≠ .readData buf len) : s.RegsKept (s.after i) := by
  cases i with
  | beginOp baud isHost => exact absurd rfl (hbegin baud isHost)
  | linVersion w => exact absurd rfl (hlin w)
  | readData buf len => exact absurd rfl (hread buf len)
  | sleep force =>
    obtain ⟨⟩ := (s.goToSleep_sendFrame force).regsKept
    constructor <;> assumption
  | wake =>
    obtain ⟨⟩ := (State.sendWake_frame ((s.gpioWrite .cs .high).setDev .ready)).regsKept
    constructor <;> assumption
  | available => exact s.availableBody_frame.regsKept.finish _
  | waitForData size =>
    obtain ⟨⟩ := s.readMillis.2.waitTurn_regsKept size s.env.advance.millis s.waitLimit
    constructor <;> assumption
  | readId => exact s.readHeader_regsKept
  | writeHeader id =>
    simp only [State.after, State.writeHeader]
    split
    · exact (State.RegsKept.refl s).finish _
    · exact (s.sendHeader_frame id).regsKept.finish 0
  | writeData buf len =>
    cases buf with
    | null => exact (State.RegsKept.refl s).finish _
    | bank => exact (State.sendPayload_frame _ s).regsKept.finish _
  | calcChecksum buf len seed => cases buf <;> exact (State.RegsKept.refl s).finish _
  | dataAvailable | calcIdParity | dataLengthCode => exact (State.RegsKept.refl s).finish _

/-- No call but `PinMode` changes a pin mode (R37). -/
theorem Pins.foldl_note_modes {calls : List Event} (h : ∀ e ∈ calls, ∀ p m, e ≠ .pinMode p m) (pins : Pins) :
    (calls.foldl Pins.note pins).modeRx = pins.modeRx ∧ (calls.foldl Pins.note pins).modeTx = pins.modeTx ∧
      (calls.foldl Pins.note pins).modeCs = pins.modeCs := by
  induction calls generalizing pins with
  | nil => exact ⟨rfl, rfl, rfl⟩
  | cons e calls ih =>
    have hmodes : (pins.note e).modeRx = pins.modeRx ∧ (pins.note e).modeTx = pins.modeTx ∧
        (pins.note e).modeCs = pins.modeCs := by
      cases e with
      | pinMode p m => exact absurd rfl (h _ List.mem_cons_self p m)
      | gpioWrite p l => cases p <;> exact ⟨rfl, rfl, rfl⟩
      | _ => exact ⟨rfl, rfl, rfl⟩
    have := ih (fun e he => h e (List.mem_cons_of_mem _ he)) (pins.note e)
    rwa [hmodes.1, hmodes.2.1, hmodes.2.2] at this

/-- Only BEGIN writes a pin mode (R266). -/
theorem exec_pinModes {i : Instr} {s t : State} (h : exec i s = .next t)
    (hbegin : ∀ baud isHost, i ≠ .beginOp baud isHost) : t.pins.modeRx = s.pins.modeRx ∧
      t.pins.modeTx = s.pins.modeTx ∧ t.pins.modeCs = s.pins.modeCs := by
  obtain ⟨calls, -, hpins, hmay⟩ := exec_calls h
  rw [hpins]
  refine Pins.foldl_note_modes (fun e he p m hmode => ?_) s.pins
  subst hmode
  obtain ⟨baud, isHost, hi⟩ := hmay _ he
  exact hbegin baud isHost hi

theorem State.initialise_regsKept (baud : BitVec 20) (isHost : Bool) (s : State) :
    (s.setLink baud isHost).RegsKept (s.initialise baud isHost) := by
  rw [State.initialise_eq]; constructor <;> rfl

theorem State.accessLinVersion_regsKept (write : Option Byte) (s : State) :
    State.RegsKept { s with linVersion := (s.accessLinVersion write).linVersion } (s.accessLinVersion write) := by
  cases write <;> constructor <;> rfl

/-- The operations that write a register, and the others. -/
theorem Instr.register_cases (i : Instr) : (∃ baud isHost, i = .beginOp baud isHost) ∨ (∃ w, i = .linVersion w) ∨
    (∃ buf len, i = .readData buf len) ∨
    ((∀ baud isHost, i ≠ .beginOp baud isHost) ∧ (∀ w, i ≠ .linVersion w) ∧ ∀ buf len, i ≠ .readData buf len) := by
  cases i <;> simp

/-- Settles O48. -/
theorem everyRegisterHasItsWriters : Obligations.EveryRegisterHasItsWriters := by
  intro i s t h
  have hmodes := exec_pinModes h
  obtain ⟨-, rfl⟩ := exec_eq_next_iff.1 h
  rcases Instr.register_cases i with ⟨baud, isHost, rfl⟩ | ⟨w, rfl⟩ | ⟨buf, len, rfl⟩ | ⟨hbegin, hlin, hread⟩
  · have k := s.initialise_regsKept baud isHost
    exact ⟨k.cfg, k.wdata, k.cmds, fun hbegin => absurd rfl (hbegin baud isHost), fun _ => k.linVersion,
      fun _ => ⟨k.rdata, k.scratch⟩⟩
  · have k := s.accessLinVersion_regsKept w
    exact ⟨k.cfg, k.wdata, k.cmds, fun hbegin => ⟨k.role, k.baud, k.bitUs, hmodes hbegin⟩, fun hlin => absurd rfl (hlin w),
      fun _ => ⟨k.rdata, k.scratch⟩⟩
  · have k := s.readPayload_regsKept buf len.toNat
    exact ⟨k.cfg, k.wdata, k.cmds, fun hbegin => ⟨k.role, k.baud, k.bitUs, hmodes hbegin⟩, fun _ => k.linVersion,
      fun hread => absurd rfl (hread buf len)⟩
  · have k := s.after_regsKept hbegin hlin hread
    exact ⟨k.cfg, k.wdata, k.cmds, fun _ => ⟨k.role, k.baud, k.bitUs, hmodes hbegin⟩, fun _ => k.linVersion,
      fun _ => ⟨k.rdata, k.scratch⟩⟩

/-! ### The detection state and the buffers (C11) -/

/-- `t` has the detection state and both buffers of `s`. -/
def State.ReceptionKept (s t : State) : Prop := t.det = s.det ∧ t.fb = s.fb ∧ t.sp = s.sp

theorem State.SendFrame.receptionKept {s t : State} (h : s.SendFrame t) : s.ReceptionKept t := ⟨h.det, h.fb, h.sp⟩

theorem State.availableBody_receptionKept {s : State} (h : s.role = .host) : s.ReceptionKept s.availableBody.2 := by
  simp only [State.availableBody, h]
  exact ⟨rfl, rfl, rfl⟩

theorem State.waitTurn_receptionKept {s : State} (h : s.role = .host) (size : Byte) (t0 : Time) (limit : Nat) :
    s.ReceptionKept (s.waitTurn size t0 limit) := by
  rcases s.waitTurn_cases size t0 limit with henough | hlate | hpoll
  · rw [henough]; exact ⟨rfl, rfl, rfl⟩
  · rw [hlate]; exact ⟨rfl, rfl, rfl⟩
  · rw [hpoll]; exact State.availableBody_receptionKept (s := s.readMillis.2) h

/-- The operations that write neither the detection state nor a buffer. -/
theorem State.after_receptionKept {i : Instr} {s : State} (hbegin : ∀ baud isHost, i ≠ .beginOp baud isHost)
    (hpoll : ¬ (s.role = .node ∧ (i = .available ∨ ∃ size, i = .waitForData size))) (hid : i ≠ .readId)
    (hread : ∀ buf len, i ≠ .readData buf len) : s.ReceptionKept (s.after i) := by
  have hhost (hi : i = .available ∨ ∃ size, i = .waitForData size) : s.role = .host := by
    cases hrole : s.role with
    | host => rfl
    | node => exact absurd ⟨hrole, hi⟩ hpoll
  cases i with
  | beginOp baud isHost => exact absurd rfl (hbegin baud isHost)
  | readId => exact absurd rfl hid
  | readData buf len => exact absurd rfl (hread buf len)
  | sleep force => exact (s.goToSleep_sendFrame force).receptionKept
  | wake => exact (State.sendWake_frame ((s.gpioWrite .cs .high).setDev .ready)).receptionKept
  | available => exact State.availableBody_receptionKept (hhost (.inl rfl))
  | waitForData size => exact State.waitTurn_receptionKept (s := s.readMillis.2) (hhost (.inr ⟨size, rfl⟩)) size _ _
  | writeHeader id =>
    simp only [State.after, State.writeHeader]
    split
    · exact ⟨rfl, rfl, rfl⟩
    · exact (s.sendHeader_frame id).receptionKept
  | writeData buf len =>
    cases buf with
    | null => exact ⟨rfl, rfl, rfl⟩
    | bank => exact (State.sendPayload_frame _ s).receptionKept
  | calcChecksum buf len seed => cases buf <;> exact ⟨rfl, rfl, rfl⟩
  | linVersion write => cases write <;> exact ⟨rfl, rfl, rfl⟩
  | dataAvailable | calcIdParity | dataLengthCode => exact ⟨rfl, rfl, rfl⟩

/-- READ_DATA leaves the detection state and the markers alone (R170). -/
theorem State.readPayload_det_sp (buf : Buf) (len : Nat) (s : State) :
    (s.readPayload buf len).det = s.det ∧ (s.readPayload buf len).sp = s.sp := by
  rcases s.readPayload_cases buf len with ⟨r, h⟩ | ⟨r, h⟩ | ⟨d, r, h⟩ <;> (rw [h]; exact ⟨rfl, rfl⟩)

/-- Settles O49. READ_ID and READ_DATA apart, `State.after_receptionKept`. -/
theorem detectionStateAndBuffersHaveTheirWriters : Obligations.DetectionStateAndBuffersHaveTheirWriters := by
  intro i s t h hbegin hpoll
  obtain ⟨-, rfl⟩ := exec_eq_next_iff.1 h
  by_cases hid : i = .readId
  · subst hid
    exact ⟨s.readHeader_det, fun hne => absurd rfl hne⟩
  by_cases hread : ∃ buf len, i = .readData buf len
  · obtain ⟨buf, len, rfl⟩ := hread
    obtain ⟨hdet, hsp⟩ := s.readPayload_det_sp buf len.toNat
    refine ⟨?_, fun _ => ⟨congrArg Detector.breakCount hdet, hsp, fun hne => absurd rfl (hne buf len)⟩⟩
    exact hdet.trans (congrArg (fun d => { s.det with breakCount := d.breakCount }) hdet.symm)
  · obtain ⟨hdet, hfb, hsp⟩ :=
      State.after_receptionKept hbegin hpoll hid fun buf len hi => hread ⟨buf, len, hi⟩
    refine ⟨?_, fun _ => ⟨congrArg Detector.breakCount hdet, hsp, fun _ => hfb⟩⟩
    exact hdet.trans (congrArg (fun d => { s.det with breakCount := d.breakCount }) hdet.symm)

end Sys2Proof.Machine
end


section
/-! PROOFS. `lin_version` is informational only (00_scope.md R2): every operation but LIN_VERSION commutes with another value of it. -/

namespace Sys2Proof.Machine

/-! ### READ_DATA outcome by outcome (R170 to R174) -/

theorem State.readPayload_short {s : State} {len : Nat} (h : s.fb.len ≤ len) :
    s.readPayload .bank len = s.raise .notEnoughData :=
  if_pos h

theorem State.readPayload_enough {s : State} {len : Nat} (h : len < s.fb.len) :
    s.readPayload .bank len = (s.popPayload len).checkPayload len :=
  if_neg (Nat.not_le.2 h)

/-- The checksum READ_DATA computes is the one it received (R172). -/
def State.PayloadGood (len : Nat) (s : State) : Prop :=
  checksum (s.scratch.toList.take len) len none = s.scratch.toList.getD len 0

theorem State.checkPayload_good {s : State} {len : Nat} (h : s.PayloadGood len) : s.checkPayload len =
    State.finish (zext16 len) { s with rdata := overlay (s.scratch.toList.take len) s.rdata } :=
  if_pos h

theorem State.checkPayload_bad {s : State} {len : Nat} (h : ¬ s.PayloadGood len) :
    s.checkPayload len = s.raise .checksumMismatch :=
  if_neg h

/-! ### Another value of the register -/

/-- Another value of `lin_version`. -/
def State.withLinVersion (v : Byte) (s : State) : State := { s with linVersion := v }

section
variable (v : Byte) (s : State)

@[simp] theorem State.withLinVersion_cfg : (s.withLinVersion v).cfg = s.cfg := rfl
@[simp] theorem State.withLinVersion_role : (s.withLinVersion v).role = s.role := rfl
@[simp] theorem State.withLinVersion_fb : (s.withLinVersion v).fb = s.fb := rfl
@[simp] theorem State.withLinVersion_bits (n : Nat) : (s.withLinVersion v).bits n = s.bits n := rfl

@[simp] theorem State.serialWrite_withLinVersion (b : Byte) : (s.withLinVersion v).serialWrite b = (s.serialWrite b).withLinVersion v := rfl
@[simp] theorem State.serialFlush_withLinVersion : (s.withLinVersion v).serialFlush = s.serialFlush.withLinVersion v := rfl
@[simp] theorem State.serialTxStop_withLinVersion : (s.withLinVersion v).serialTxStop = s.serialTxStop.withLinVersion v := rfl
@[simp] theorem State.serialRestart_withLinVersion : (s.withLinVersion v).serialRestart = s.serialRestart.withLinVersion v := rfl
@[simp] theorem State.gpioWrite_withLinVersion (p : Pin) (l : Level) : (s.withLinVersion v).gpioWrite p l = (s.gpioWrite p l).withLinVersion v := rfl
@[simp] theorem State.delayUs_withLinVersion (n : Nat) : (s.withLinVersion v).delayUs n = (s.delayUs n).withLinVersion v := rfl
@[simp] theorem State.setDev_withLinVersion (d : DevState) : (s.withLinVersion v).setDev d = (s.setDev d).withLinVersion v := rfl
@[simp] theorem State.finish_withLinVersion (r : Result) : (s.withLinVersion v).finish r = (s.finish r).withLinVersion v := rfl
@[simp] theorem State.raise_withLinVersion (k : ErrorKind) : (s.withLinVersion v).raise k = (s.raise k).withLinVersion v := rfl
@[simp] theorem State.uncountDrop_withLinVersion : (s.withLinVersion v).uncountDrop = s.uncountDrop.withLinVersion v := rfl
@[simp] theorem State.fbDrop_withLinVersion : (s.withLinVersion v).fbDrop = s.fbDrop.withLinVersion v := rfl
@[simp] theorem State.spDrop_withLinVersion : (s.withLinVersion v).spDrop = s.spDrop.withLinVersion v := rfl
@[simp] theorem State.popPayload_withLinVersion (n : Nat) : (s.withLinVersion v).popPayload n = (s.popPayload n).withLinVersion v := rfl

@[simp] theorem State.sendHeader_withLinVersion (id : Byte) :
    (s.withLinVersion v).sendHeader id = (s.sendHeader id).withLinVersion v := by
  simp [State.sendHeader]

@[simp] theorem State.sendByte_withLinVersion (b : Byte) :
    (s.withLinVersion v).sendByte b = (s.sendByte b).withLinVersion v := by
  simp [State.sendByte]

@[simp] theorem State.sendBytes_withLinVersion (data : List Byte) :
    data.foldl State.sendByte (s.withLinVersion v) = (data.foldl State.sendByte s).withLinVersion v := by
  induction data generalizing s with
  | nil => rfl
  | cons b data ih => rw [List.foldl_cons, State.sendByte_withLinVersion, ih, List.foldl_cons]

@[simp] theorem State.sendPayload_withLinVersion (data : List Byte) :
    (s.withLinVersion v).sendPayload data = (s.sendPayload data).withLinVersion v := by
  simp [State.sendPayload]

theorem State.goToSleep_withLinVersion (force : Bool) :
    (s.withLinVersion v).goToSleep force = (s.goToSleep force).withLinVersion v := by
  by_cases h : force = true ∧ s.role = .host <;> simp [State.goToSleep, State.sendSleepFrame, h]

theorem State.wakeUp_withLinVersion : (s.withLinVersion v).wakeUp = s.wakeUp.withLinVersion v := by
  by_cases h : s.role = .node ∧ s.cfg.hasTx = true <;> simp [State.wakeUp, State.sendWake, h]

theorem State.readHeader_withLinVersion : (s.withLinVersion v).readHeader = s.readHeader.withLinVersion v := by
  rcases Nat.lt_or_ge s.fb.len 3 with hshort | hlen
  · rw [State.readHeader_notReady hshort, State.readHeader_notReady (s := s.withLinVersion v) hshort]
    rfl
  · simp only [State.readHeader_ready hlen, State.readHeader_ready (s := s.withLinVersion v) hlen, State.readPid_eq,
      State.withLinVersion_fb, State.uncountDrop_withLinVersion]
    split <;> simp

theorem State.checkPayload_withLinVersion (len : Nat) :
    (s.withLinVersion v).checkPayload len = (s.checkPayload len).withLinVersion v := by
  by_cases h : s.PayloadGood len
  · rw [State.checkPayload_good h, State.checkPayload_good (s := s.withLinVersion v) h]
    rfl
  · rw [State.checkPayload_bad h, State.checkPayload_bad (s := s.withLinVersion v) h]
    rfl

theorem State.readPayload_withLinVersion (buf : Buf) (len : Nat) :
    (s.withLinVersion v).readPayload buf len = (s.readPayload buf len).withLinVersion v := by
  cases buf with
  | null => rfl
  | bank =>
    rcases Nat.lt_or_ge len s.fb.len with h | h
    · rw [State.readPayload_enough h, State.readPayload_enough (s := s.withLinVersion v) h,
        State.popPayload_withLinVersion, State.checkPayload_withLinVersion]
    · rw [State.readPayload_short h, State.readPayload_short (s := s.withLinVersion v) h]
      rfl

theorem State.availableBody_withLinVersion : (s.withLinVersion v).availableBody =
    (s.availableBody.1, s.availableBody.2.withLinVersion v) := by
  obtain ⟨hphase, hcmds, hresult, hrsp⟩ : s.availableBody.2.phase = s.phase ∧ s.availableBody.2.cmds = s.cmds ∧
      s.availableBody.2.result = s.result ∧ s.availableBody.2.rspValid = s.rspValid :=
    have h := s.availableBody_frame
    ⟨h.phase, h.cmds, h.result, h.rspValid⟩
  refine (State.availableBody_around s.cmds v s.phase s.result s.rspValid s).trans (congrArg (Prod.mk _) ?_)
  rw [← hphase, ← hcmds, ← hresult, ← hrsp]
  rfl

theorem State.waitTurn_withLinVersion (size : Byte) (t0 : Time) (limit : Nat) :
    (s.withLinVersion v).waitTurn size t0 limit = (s.waitTurn size t0 limit).withLinVersion v := by
  refine (State.waitTurn_around s.cmds v s size t0 limit).trans ?_
  exact congrArg (fun cs => { s.waitTurn size t0 limit with cmds := cs, linVersion := v })
    (s.waitTurn_regsKept size t0 limit).cmds.symm

/-- Every operation but LIN_VERSION does the same with another value of the register, and leaves that value. -/
theorem State.after_withLinVersion {i : Instr} (h : ∀ w, i ≠ .linVersion w) :
    (s.withLinVersion v).after i = (s.after i).withLinVersion v := by
  cases i with
  | linVersion w => exact absurd rfl (h w)
  | beginOp baud isHost => rw [State.after, State.initialise_eq, State.after, State.initialise_eq]; rfl
  | sleep force => exact s.goToSleep_withLinVersion v force
  | wake => exact s.wakeUp_withLinVersion v
  | available => rw [State.after, State.availableBody_withLinVersion]; rfl
  | waitForData size => exact s.readMillis.2.waitTurn_withLinVersion v size _ _
  | readId => exact s.readHeader_withLinVersion v
  | readData buf len => exact s.readPayload_withLinVersion v buf _
  | writeHeader id =>
    simp only [State.after, State.writeHeader, State.withLinVersion_role]
    split <;> simp
  | writeData buf len =>
    cases buf with
    | null => rfl
    | bank => exact congrArg (State.finish _) (s.sendPayload_withLinVersion v _)
  | calcChecksum buf len seed => cases buf <;> rfl
  | dataAvailable | calcIdParity | dataLengthCode => rfl

end

/-- The gate reads the device state only (R262). -/
theorem State.afterBegin_withLinVersion {v : Byte} {s u u' : State} (hu : u' = u.withLinVersion v) :
    (s.withLinVersion v).afterBegin (.next u') = mapNext (State.withLinVersion v) (s.afterBegin (.next u)) := by
  subst hu
  by_cases h : s.devState = .powerOnReset
  · rw [State.afterBegin_reset h, State.afterBegin_reset (s := s.withLinVersion v) h]; rfl
  · rw [State.afterBegin_begun h, State.afterBegin_begun (s := s.withLinVersion v) h]; rfl

/-- Settles O51. -/
theorem linVersionHasNoEffect : Obligations.LinVersionHasNoEffect := by
  intro i s v h
  have hafter := s.after_withLinVersion v h
  cases i with
  | linVersion w => exact absurd rfl (h w)
  | beginOp baud isHost =>
    change execBegin baud isHost _ = mapNext _ (execBegin baud isHost s)
    simp only [execBegin]
    split
    · split
      · rfl
      · exact congrArg _ hafter
    · rfl
  | readData buf len | writeData buf len =>
    simp only [exec, execReadData, execWriteData]
    split
    · exact State.afterBegin_withLinVersion hafter
    · rfl
  | calcChecksum | calcIdParity | dataLengthCode => exact congrArg Host.Outcome.next hafter
  | _ => exact State.afterBegin_withLinVersion hafter

end Sys2Proof.Machine
end


section
/-! PROOFS. The invariant of the machine (60_exceptions.md R254): it holds at reset and every step keeps it; and the empty Frame Byte Buffer of a Host (70_reset_and_hazards.md R309). -/

namespace Sys2Proof.Machine

/-! ### The buffers, the TX line and the unsent bytes -/

/-- Between operations, after BEGIN: the buffers are as R60 says, the serial peripheral has TX, nothing is unsent (R307). -/
structure State.Settled (s : State) : Prop where
  buffers : s.BuffersOk
  txOwner : s.pins.txOwner = .serial
  nothingPending : s.env.txPending = []

section
variable {s t : State}

/-- A transmission that gives TX back and flushes leaves a settled state. -/
theorem State.SendFrame.settled (f : s.SendFrame t) (h : s.BuffersOk) (htx : t.pins.txOwner = .serial)
    (hsent : t.env.txPending = []) : t.Settled :=
  ⟨⟨by rw [f.fb, f.cfg]; exact h.1, by rw [f.sp]; exact h.2⟩, htx, hsent⟩

theorem State.availableBody_settled (h : s.Settled) : s.availableBody.2.Settled := by
  have f := s.availableBody_frame
  obtain ⟨hfb, hsp⟩ := State.availableBody_buffers h.buffers.1 h.buffers.2
  exact ⟨⟨by rw [f.cfg]; exact hfb, hsp⟩, by rw [f.pins]; exact h.txOwner,
    s.availableBody_txPending.trans h.nothingPending⟩

theorem State.readMillis_settled (h : s.Settled) : s.readMillis.2.Settled :=
  ⟨h.buffers, h.txOwner, by simpa using h.nothingPending⟩

theorem State.waitTurn_settled (h : s.Settled) (size : Byte) (t0 : Time) (limit : Nat) :
    (s.waitTurn size t0 limit).Settled := by
  rcases s.waitTurn_cases size t0 limit with henough | hlate | hpoll
  · rw [henough]; exact ⟨h.buffers, h.txOwner, h.nothingPending⟩
  · rw [hlate]
    obtain ⟨hbuf, htx, hsent⟩ := State.readMillis_settled h
    exact ⟨hbuf, htx, hsent⟩
  · rw [hpoll]
    obtain ⟨hbuf, htx, hsent⟩ := State.availableBody_settled (State.readMillis_settled h)
    exact ⟨hbuf, htx, hsent⟩

theorem State.readHeader_settled (h : s.Settled) : s.readHeader.Settled := by
  obtain ⟨-, hpins, henv⟩ := s.readHeader_outside
  exact ⟨State.readHeader_buffersOk h.buffers, by rw [hpins]; exact h.txOwner, by rw [henv]; exact h.nothingPending⟩

theorem State.readPayload_buffersOk (h : s.BuffersOk) (buf : Buf) (len : Nat) : (s.readPayload buf len).BuffersOk := by
  rcases s.readPayload_cases buf len with ⟨r, e⟩ | ⟨r, e⟩ | ⟨d, r, e⟩ <;> rw [e]
  · exact h
  · exact ⟨Ring.pop_wf _ h.1, h.2⟩
  · exact ⟨Ring.pop_wf _ h.1, h.2⟩

theorem State.readPayload_settled (h : s.Settled) (buf : Buf) (len : Nat) : (s.readPayload buf len).Settled := by
  obtain ⟨-, hpins, henv⟩ := s.readPayload_outside buf len
  exact ⟨State.readPayload_buffersOk h.buffers buf len, by rw [hpins]; exact h.txOwner,
    by rw [henv]; exact h.nothingPending⟩

theorem State.sendWake_settled (h : s.Settled) : s.sendWake.Settled := by
  unfold State.sendWake
  split
  · exact State.SendFrame.settled (by constructor <;> simp) h.buffers (by simpa using h.txOwner) (by simp)
  · exact h

theorem State.sleepFrame_settled (h : s.Settled) (force : Bool) :
    (if force ∧ s.role = .host then s.sendSleepFrame else s).Settled := by
  split
  · exact s.sendSleepFrame_frame.settled h.buffers (by rw [State.sendSleepFrame_pins]) s.sendSleepFrame_txPending
  · exact h

/-- Every operation but BEGIN keeps a settled state settled. -/
theorem State.after_settled {i : Instr} (h : s.Settled) (hbegin : ∀ baud isHost, i ≠ .beginOp baud isHost) :
    (s.after i).Settled := by
  cases i with
  | beginOp baud isHost => exact absurd rfl (hbegin baud isHost)
  | sleep force =>
    obtain ⟨hbuf, htx, hsent⟩ := State.sleepFrame_settled h force
    exact ⟨hbuf, htx, hsent⟩
  | wake =>
    obtain ⟨hbuf, htx, hsent⟩ := State.sendWake_settled (s := (s.gpioWrite .cs .high).setDev .ready)
      ⟨h.buffers, h.txOwner, h.nothingPending⟩
    exact ⟨hbuf, htx, hsent⟩
  | available =>
    obtain ⟨hbuf, htx, hsent⟩ := State.availableBody_settled h
    exact ⟨hbuf, htx, hsent⟩
  | waitForData size => exact State.waitTurn_settled (State.readMillis_settled h) size _ _
  | readId => exact State.readHeader_settled h
  | readData buf len => exact State.readPayload_settled h buf _
  | writeHeader id =>
    simp only [State.after, State.writeHeader]
    split
    · exact ⟨h.buffers, h.txOwner, h.nothingPending⟩
    · obtain ⟨hbuf, htx, hsent⟩ := (s.sendHeader_frame id).settled h.buffers (by rw [State.sendHeader_pins])
        (s.sendHeader_txPending id)
      exact ⟨hbuf, htx, hsent⟩
  | writeData buf len =>
    cases buf with
    | null => exact ⟨h.buffers, h.txOwner, h.nothingPending⟩
    | bank =>
      obtain ⟨hbuf, htx, hsent⟩ := (State.sendPayload_frame (s.payload len) s).settled h.buffers
        (by rw [State.sendPayload_pins]; exact h.txOwner) (State.sendPayload_txPending _ s)
      exact ⟨hbuf, htx, hsent⟩
  | calcChecksum buf len seed => cases buf <;> exact ⟨h.buffers, h.txOwner, h.nothingPending⟩
  | linVersion write => cases write <;> exact ⟨h.buffers, h.txOwner, h.nothingPending⟩
  | dataAvailable | calcIdParity | dataLengthCode => exact ⟨h.buffers, h.txOwner, h.nothingPending⟩

/-! ### The invariant -/

theorem State.Inv.settled (h : s.Inv) (hb : s.devState ≠ .powerOnReset) : s.Settled :=
  ⟨(h.begun hb).buffers, (h.begun hb).txOwner, h.nothingPending⟩

/-- Buffers as R60 says have canonical stores inside their capacities. -/
theorem State.BuffersOk.stores (h : s.BuffersOk) : (s.fb.mem.wf ∧ s.sp.mem.wf) ∧
    (∀ c ∈ s.fb.mem, c.1 < s.cfg.nFb) ∧ ∀ c ∈ s.sp.mem, c.1 < Config.nSp := by
  obtain ⟨-, -, -, -, hfb, hfba⟩ := (Ring.wf_iff _ _).1 h.1
  obtain ⟨-, -, -, -, hsp, hspa⟩ := (Ring.wf_iff _ _).1 h.2
  exact ⟨⟨hfb, hsp⟩, hfba, hspa⟩

/-- After BEGIN the invariant is what BEGIN establishes, the configuration's constraints, a legal device state and
nothing unsent; the clauses on the stores follow. -/
theorem State.Begun.inv (h : s.Begun) (hcfg : s.cfg.Ok) (hdev : s.devState = .ready ∨ s.devState = .sleep)
    (hsent : s.env.txPending = []) : s.Inv := by
  obtain ⟨hmem, haddr⟩ := State.BuffersOk.stores h.buffers
  have hne : s.devState ≠ .powerOnReset := by rcases hdev with e | e <;> rw [e] <;> nofun
  exact ⟨hcfg, .inr hdev, hmem, haddr, fun e => absurd e hne, hsent, fun _ => h⟩

/-- The invariant does not speak of the port, `lin_version` and the result, nor of the phase but for `busy` in
PowerOnReset. -/
theorem State.Inv.relabel (h : s.Inv) (cs : List Command) (w : Bank) (v : Byte) (r : Result) (b : Bool) {p : Phase}
    (hp : p = .idle ∨ p = s.phase) :
    State.Inv { s with cmds := cs, wdata := w, linVersion := v, result := r, rspValid := b, phase := p } := by
  obtain ⟨hcfg, hdev, hmem, haddr, hidle, hsent, hbegun⟩ := h
  refine ⟨hcfg, hdev, hmem, haddr, fun e => ⟨?_, (hidle e).2⟩, hsent, fun e => ?_⟩
  · rcases hp with rfl | rfl
    · rfl
    · exact (hidle e).1
  · obtain ⟨hbuf, hbaud, hbit, htx, hrx, hcs, hmtx, hready, hsleep, howner⟩ := hbegun e
    exact ⟨hbuf, hbaud, hbit, htx, hrx, hcs, hmtx, hready, hsleep, howner⟩

theorem State.Inv.finish (h : s.Inv) (r : Result) : (s.finish r).Inv :=
  h.relabel s.cmds s.wdata s.linVersion r true (.inl rfl)

/-- BEGIN in its domain establishes the invariant, from any state that meets it (R230). -/
theorem State.Inv.initialise (h : s.Inv) {baud : BitVec 20} {isHost : Bool} (hruns : s.Runs (.beginOp baud isHost)) :
    (s.initialise baud isHost).Inv := by
  obtain ⟨hbaud, htx⟩ := hruns
  have hmode : s.cfg.hasTx = false → s.pins.modeTx = .unset := by
    intro hno
    by_cases hb : s.devState = .powerOnReset
    · exact (h.idle hb).2.2.2
    · rw [(h.begun hb).modeTx, hno]; rfl
  rw [State.initialise_eq]
  refine State.Begun.inv ⟨⟨?_, ?_⟩, hbaud, rfl, ?_, rfl, rfl, ?_, fun _ => rfl, nofun, rfl⟩ h.cfg (.inl rfl)
    (Env.peripheral_nothingPending h.nothingPending)
  · exact Ring.clear_wf h.cfg.1 h.mem.1 h.inCapacity.1
  · exact Ring.clear_wf (by decide) h.mem.2 h.inCapacity.2
  · intro hhost
    cases isHost with
    | false => cases hhost
    | true => simpa using htx
  · by_cases hhas : s.cfg.hasTx = true
    · simp [hhas]
    · simp [hhas, hmode (Bool.eq_false_iff.2 hhas)]

/-- In PowerOnReset an operation other than BEGIN that runs only answers (R262). -/
theorem State.Inv.after_reset {i : Instr} (h : s.Inv) (hruns : s.Runs i) (hreset : s.devState = .powerOnReset)
    (hbegin : ∀ baud isHost, i ≠ .beginOp baud isHost) : (s.after i).Inv := by
  cases i with
  | beginOp baud isHost => exact absurd rfl (hbegin baud isHost)
  | calcChecksum buf len seed => cases buf <;> exact h.finish _
  | calcIdParity | dataLengthCode => exact h.finish _
  | linVersion write => cases write <;> exact h.relabel s.cmds s.wdata _ _ true (.inl rfl)
  | readData | writeData => exact absurd hreset hruns.2
  | _ => exact absurd hreset hruns

/-- After BEGIN the device is ready with CS high, or asleep with CS low (R240). -/
def State.DeviceOk (s : State) : Prop := s.device = (.ready, .high) ∨ s.device = (.sleep, .low)

theorem State.Inv.deviceOk (h : s.Inv) (hb : s.devState ≠ .powerOnReset) : s.DeviceOk := by
  rcases h.dev with e | e | e
  · exact absurd e hb
  · exact .inl (Prod.ext e ((h.begun hb).csReady e))
  · exact .inr (Prod.ext e ((h.begun hb).csSleep e))

/-- The arrows of the diagram lead from such a device to such a device. -/
theorem exec_deviceOk {i : Instr} (h : exec i s = .next t) (hs : s.DeviceOk) : t.DeviceOk := by
  rw [State.DeviceOk, exec_device h]
  cases i with
  | beginOp | wake => exact .inl rfl
  | sleep => exact .inr rfl
  | _ => exact hs

/-- What BEGIN established holds of any settled state with the same link, pin modes and a device of the diagram. -/
theorem State.Begun.transfer (h : s.Begun) (hsettled : t.Settled) (hdev : t.DeviceOk) (hcfg : t.cfg = s.cfg)
    (hlink : t.role = s.role ∧ t.baud = s.baud ∧ t.bitUs = s.bitUs ∧ t.pins.modeRx = s.pins.modeRx ∧
      t.pins.modeTx = s.pins.modeTx ∧ t.pins.modeCs = s.pins.modeCs) : t.Begun := by
  obtain ⟨hrole, hbaud, hbit, hrx, htx, hcs⟩ := hlink
  refine ⟨hsettled.buffers, hbaud ▸ h.baud, ?_, ?_, hrx.trans h.modeRx, hcs.trans h.modeCs, ?_, ?_, ?_, hsettled.txOwner⟩
  · rw [hbit, hbaud]; exact h.bitUs
  · rw [hrole, hcfg]; exact h.hostTx
  · rw [htx, hcfg]; exact h.modeTx
  · intro e
    rcases hdev with d | d
    · exact congrArg Prod.snd d
    · exact absurd (e.symm.trans (congrArg Prod.fst d)) nofun
  · intro e
    rcases hdev with d | d
    · exact absurd (e.symm.trans (congrArg Prod.fst d)) nofun
    · exact congrArg Prod.snd d

/-- The same, for the whole invariant. -/
theorem State.Inv.transfer (h : s.Inv) (hb : s.devState ≠ .powerOnReset) (hsettled : t.Settled) (hdev : t.DeviceOk)
    (hcfg : t.cfg = s.cfg) (hlink : t.role = s.role ∧ t.baud = s.baud ∧ t.bitUs = s.bitUs ∧
      t.pins.modeRx = s.pins.modeRx ∧ t.pins.modeTx = s.pins.modeTx ∧ t.pins.modeCs = s.pins.modeCs) : t.Inv :=
  ((h.begun hb).transfer hsettled hdev hcfg hlink).inv (hcfg ▸ h.cfg)
    (hdev.imp (congrArg Prod.fst) (congrArg Prod.fst)) hsettled.nothingPending

/-- Every operation keeps the invariant: BEGIN establishes it, the others only answer in PowerOnReset, and after BEGIN
they write nothing it speaks of but the buffers, the device state and CS. -/
theorem exec_keeps_inv {i : Instr} (h : s.Inv) (hexec : exec i s = .next t) : t.Inv := by
  obtain ⟨hruns, rfl⟩ := exec_eq_next_iff.1 hexec
  by_cases hi : ∃ baud isHost, i = .beginOp baud isHost
  · obtain ⟨baud, isHost, rfl⟩ := hi
    exact h.initialise hruns
  have hbegin (baud : BitVec 20) (isHost : Bool) : i ≠ .beginOp baud isHost := fun e => hi ⟨baud, isHost, e⟩
  by_cases hb : s.devState = .powerOnReset
  · exact h.after_reset hruns hb hbegin
  · obtain ⟨hcfg, -, -, hlink, -⟩ := everyRegisterHasItsWriters i s _ hexec
    exact h.transfer hb (State.after_settled (h.settled hb) hbegin) (exec_deviceOk hexec (h.deviceOk hb)) hcfg
      (hlink hbegin)

/-- A wait in progress keeps the invariant: PowerOnReset is idle, so it is after BEGIN. -/
theorem State.Inv.waitTurn (h : s.Inv) (hb : s.devState ≠ .powerOnReset) (size : Byte) (t0 : Time) (limit : Nat) :
    (s.waitTurn size t0 limit).Inv := by
  have k := s.waitTurn_regsKept size t0 limit
  have hpins : (s.waitTurn size t0 limit).pins = s.pins := by
    rcases s.waitTurn_cases size t0 limit with e | e | e <;> rw [e]
    · rfl
    · rfl
    · exact s.readMillis.2.availableBody_frame.pins
  refine h.transfer hb (State.waitTurn_settled (h.settled hb) size t0 limit) ?_ k.cfg
    ⟨k.role, k.baud, k.bitUs, by rw [hpins], by rw [hpins], by rw [hpins]⟩
  rw [State.DeviceOk, State.waitTurn_device]
  exact h.deviceOk hb

end

/-- Settles O55, by the three things a step can do. -/
theorem stepKeepsTheInvariant : Obligations.StepKeepsTheInvariant := by
  intro s t h hstep
  have hpulse : s.endPulse.Inv := h.relabel s.cmds s.wdata s.linVersion s.result false (.inr rfl)
  rcases step_cases hstep with ⟨-, -, rfl⟩ | ⟨c, rest, i, -, -, -, hexec⟩ | ⟨size, t0, limit, hphase, rfl⟩
  · exact hpulse
  · exact exec_keeps_inv (h.relabel rest c.wdata s.linVersion s.result false (.inr rfl)) hexec
  · have hbusy : s.busy = true := State.busy_iff.2 ⟨size, t0, limit, hphase⟩
    exact hpulse.waitTurn (fun e => Bool.false_ne_true ((h.idle e).1.symm.trans hbusy)) size t0 limit

/-- The invariant at reset. -/
theorem State.resetWith_inv {c : Config} (hc : c.Ok) (d : ResetDraw) : (State.resetWith c d).Inv :=
  ⟨hc, .inl rfl, State.resetWith_memory_wf c d, State.resetWith_memory_addr c d, fun _ => ⟨rfl, rfl, rfl, rfl⟩, rfl,
    fun h => absurd rfl h⟩

/-- Settles O54. -/
theorem resetMeetsTheInvariant : Obligations.ResetMeetsTheInvariant :=
  ⟨fun _ d hc => State.resetWith_inv hc d, State.resetWith_inv (by decide) _⟩

/-- Settles O53. -/
theorem resetLeavesPowerOnReset : Obligations.ResetLeavesPowerOnReset :=
  ⟨fun c d => ⟨rfl, rfl, rfl, rfl, rfl, rfl, rfl, rfl, rfl, rfl, fun i h hi => State.resetWith_fb_read c d i hi h, rfl, rfl,
    rfl, fun i h => State.resetWith_sp_read c d i h, rfl, rfl, rfl, rfl, rfl, rfl⟩, rfl⟩

/-! ### A Host buffers nothing (R309) -/

/-- In the Host role, after BEGIN, `FB` is empty. -/
def State.HostEmpty (s : State) : Prop := s.devState ≠ .powerOnReset → s.role = .host → s.fb.len = 0

/-- Every operation of a Host but BEGIN leaves an empty `FB` as it is: no poll drains, and the readers fail. -/
theorem State.after_fb_of_host {i : Instr} {s : State} (hbegin : ∀ baud isHost, i ≠ .beginOp baud isHost)
    (hrole : s.role = .host) (hempty : s.fb.len = 0) : (s.after i).fb = s.fb := by
  by_cases hid : i = .readId
  · rw [hid, State.after, State.readHeader_notReady (by omega)]
    rfl
  by_cases hread : ∃ buf len, i = .readData buf len
  · obtain ⟨buf, len, rfl⟩ := hread
    cases buf with
    | null => rfl
    | bank => rw [State.after, State.readPayload_short (by omega)]; rfl
  · have hnode : ¬ (s.role = .node ∧ (i = .available ∨ ∃ size, i = .waitForData size)) := fun h => by
      rw [hrole] at h
      exact absurd h.1 nofun
    exact (State.after_receptionKept hbegin hnode hid fun buf len e => hread ⟨buf, len, e⟩).2.1

/-- An operation other than BEGIN does not leave PowerOnReset (R240, R262). -/
theorem begun_of_exec {i : Instr} {s t : State} (hexec : exec i s = .next t)
    (hbegin : ∀ baud isHost, i ≠ .beginOp baud isHost) (hb : t.devState ≠ .powerOnReset) :
    s.devState ≠ .powerOnReset := by
  intro hreset
  have hadmitted : admittedAtReset i :=
    (exec_eq_next_iff.1 hexec).1.begun_or_admitted.resolve_left (not_not_intro hreset)
  have hdevice : t.device = s.device := (exec_device hexec).trans
    (deviceAfter_other hbegin (by rintro rfl; exact hadmitted) (by rintro force rfl; exact hadmitted) _)
  exact hb ((congrArg Prod.fst hdevice).trans hreset)

theorem exec_keeps_hostEmpty {i : Instr} {s t : State} (h : s.HostEmpty) (hexec : exec i s = .next t) : t.HostEmpty := by
  intro hb hrole
  obtain ⟨hruns, rfl⟩ := exec_eq_next_iff.1 hexec
  by_cases hi : ∃ baud isHost, i = .beginOp baud isHost
  · obtain ⟨baud, isHost, rfl⟩ := hi
    rw [State.after, State.initialise_eq]
    rfl
  have hbegin (baud : BitVec 20) (isHost : Bool) : i ≠ .beginOp baud isHost := fun e => hi ⟨baud, isHost, e⟩
  obtain ⟨-, -, -, hlink, -⟩ := everyRegisterHasItsWriters i s _ hexec
  have hhost : s.role = .host := (hlink hbegin).1.symm.trans hrole
  have hbegun : s.devState ≠ .powerOnReset := begun_of_exec hexec hbegin hb
  rw [State.after_fb_of_host hbegin hhost (h hbegun hhost)]
  exact h hbegun hhost

/-- Settles O52. -/
theorem hostNeverFillsTheFrameBuffer : Obligations.HostNeverFillsTheFrameBuffer := by
  refine ⟨fun s t h hstep => ?_, fun s len hb hempty hlen => ⟨?_, ?_, ?_⟩⟩
  · rcases step_cases hstep with ⟨-, -, rfl⟩ | ⟨c, rest, i, -, -, -, hexec⟩ | ⟨size, t0, limit, hphase, rfl⟩
    · exact h
    · exact exec_keeps_hostEmpty (s := s.accept c rest) h hexec
    · intro hb hrole
      have hhost : s.role = .host := (s.endPulse.waitTurn_regsKept size t0 limit).role.symm.trans hrole
      have hdev := congrArg Prod.fst (s.endPulse.waitTurn_device size t0 limit)
      rw [(State.waitTurn_receptionKept (s := s.endPulse) hhost size t0 limit).2.1]
      exact h (fun e => hb (hdev.trans e)) hhost
  · rw [exec_of_runs (i := .dataAvailable) hb, State.after, hempty]
    rfl
  · rw [exec_readId hb, State.readHeader_notReady (by omega)]
    rfl
  · rw [exec_of_runs (i := .readData .bank len) ⟨(lenOk_iff len).2 hlen, hb⟩, State.after, State.readPayload_short (by omega)]
    rfl

end Sys2Proof.Machine
end


section
/-! PROOFS. The detector of 41_detector.md: AVAILABLE in both roles (R140 to R147) and DATA_AVAILABLE (R148). -/

namespace Sys2Proof.Machine

/-! ### AVAILABLE on a Host, and DATA_AVAILABLE -/

theorem exec_available_host {s : State} (hb : s.devState ≠ .powerOnReset) (hrole : s.role = .host) : exec .available s =
    .next (s.serialCount.2.finish (hostCount s.env.advance.rxQueue.length)) := by
  rw [exec_of_runs (i := .available) hb, State.after]
  simp only [State.availableBody, hrole]
  rfl

theorem exec_available_node {s : State} (hb : s.devState ≠ .powerOnReset) (hrole : s.role = .node) : exec .available s =
    .next (s.poll.finish (zext16 s.poll.det.breakCount.toNat)) := by
  rw [exec_of_runs (i := .available) hb, State.after]
  simp only [State.availableBody, hrole]

/-- Settles O17. -/
theorem availableOnAHostReportsTheQueue : Obligations.AvailableOnAHostReportsTheQueue :=
  fun _ hb hrole => exec_available_host hb hrole

/-- Settles O20. The count fits the result, since R60 and R7 bound it by 256. -/
theorem dataAvailableCountsTheBuffer : Obligations.DataAvailableCountsTheBuffer := by
  refine ⟨by decide, fun s hb => ⟨exec_of_runs (i := .dataAvailable) hb, fun hcfg hok => ?_⟩⟩
  obtain ⟨-, -, hle, -⟩ := (Ring.wf_iff _ _).1 hok.1
  obtain ⟨-, hmax, -⟩ := hcfg
  rw [Ring.content_length, BitVec.toNat_ofNat, Nat.mod_eq_of_lt (by omega)]

/-! ### Steps 1 and 2 of a poll: the detection state (R141, R142) -/

/-- The detection state after the sample: it follows a changed level, and a long dominant pulse that ends confirms a
break. -/
theorem State.edge_det_eq (s : State) {changed confirmed : Prop} [Decidable changed] [Decidable confirmed]
    (hchanged : changed ↔ s.env.advance.rxLevel ≠ s.det.lastLevel)
    (hconfirmed : confirmed ↔ s.det.breakConfirmed = true ∨ (changed ∧ s.env.advance.rxLevel = .high ∧
      s.det.breakStartValid = true ∧ 11 * s.bitUs.toNat < (s.env.advance.advance.micros - s.det.breakStart).toNat)) :
    s.edge.det = {
      lastLevel := s.env.advance.rxLevel
      lastActivity := if changed then s.env.advance.advance.micros else s.det.lastActivity
      breakStart := if changed ∧ s.env.advance.rxLevel = .low then s.env.advance.advance.micros else s.det.breakStart
      breakStartValid := s.det.breakStartValid || decide (changed ∧ s.env.advance.rxLevel = .low)
      breakConfirmed := decide confirmed
      breakCount := s.det.breakCount } := by
  rw [State.edge_det]
  by_cases h : s.env.advance.rxLevel = s.det.lastLevel
  · have hno : ¬ changed := fun hc => hchanged.1 hc h
    simp [h, hno, hconfirmed]
  · have hyes : changed := hchanged.2 h
    rw [if_pos h, Detector.levelChanged_eq]
    simp [hyes, hconfirmed, elapsed, State.bits, breakMinBits, Bool.and_assoc]

/-! ### Step 4 of a poll: the match (R144) -/

/-- Everything a write does, `accepted` being whether there is room (R62). -/
theorem Ring.write_effect {n : Nat} {b : Ring} (h : b.wf n = true) (v : Byte) {accepted : Prop} [Decidable accepted]
    (haccepted : accepted ↔ b.len ≠ n) :
    (b.write n v).2.content n = b.content n ++ (if accepted then [v] else []) ∧ (b.write n v).2.head = b.head ∧
      ∀ a, ¬ (accepted ∧ a = b.tail) → (b.write n v).2.mem.read a = b.mem.read a := by
  obtain ⟨-, -, -, -, hmem, -⟩ := (Ring.wf_iff _ _).1 h
  rw [Ring.write_content h]
  by_cases hfull : b.len = n
  · have hno : ¬ accepted := fun ha => haccepted.1 ha hfull
    simp [Ring.write_full hfull, hfull, hno]
  · have hyes : accepted := haccepted.2 hfull
    rw [Ring.write_room hfull, if_neg hfull, if_pos hyes]
    refine ⟨rfl, rfl, fun a ha => ?_⟩
    rw [Memory.read_write ((Memory.wf_iff _).1 hmem).1, if_neg fun e => ha ⟨hyes, e⟩]

/-- What the match leaves, `matched` being its condition and `pushed` whether the marker finds room (R144). -/
structure State.MatchEffect (s t : State) (matched pushed : Prop) [Decidable matched] [Decidable pushed] : Prop where
  fbContent : t.fb.content s.cfg.nFb = if matched then (s.fb.content s.cfg.nFb).tail else s.fb.content s.cfg.nFb
  fbHead : t.fb.head = (s.fb.head + if matched then 1 else 0) % s.cfg.nFb
  fbTail : t.fb.tail = s.fb.tail
  fbMem : t.fb.mem = s.fb.mem
  spContent : t.sp.content Config.nSp =
    s.sp.content Config.nSp ++ if pushed then [BitVec.ofNat 8 s.fb.tail] else []
  spHead : t.sp.head = s.sp.head
  spMem : ∀ a, ¬ (pushed ∧ a = s.sp.tail) → t.sp.mem.read a = s.sp.mem.read a
  det : t.det = { s.det with
    breakConfirmed := decide (s.det.breakConfirmed = true ∧ ¬ matched)
    breakCount := s.det.breakCount + if matched then 1 else 0 }
  buffers : t.BuffersOk

theorem State.matchRemnant_effect {s : State} (h : s.BuffersOk) {matched pushed : Prop} [Decidable matched]
    [Decidable pushed] (hmatched : matched ↔ s.det.breakConfirmed = true ∧ (s.fb.content s.cfg.nFb).head? = some 0)
    (hpushed : pushed ↔ matched ∧ s.sp.len ≠ 8) : s.MatchEffect s.matchRemnant matched pushed := by
  obtain ⟨hfb, hsp⟩ := h
  rw [← Ring.peek_content hfb] at hmatched
  by_cases hm : matched
  case pos =>
    have hcond := hmatched.1 hm
    have hlen : s.fb.len ≠ 0 := fun e => by simp [Ring.peek, e] at hcond
    obtain ⟨hcontent, hhead, hread⟩ := Ring.write_effect hsp (BitVec.ofNat 8 s.fb.tail) (hpushed.trans (and_iff_right hm))
    rw [State.matchRemnant_match hcond]
    exact {
      fbContent := by rw [if_pos hm]; exact (Ring.read_content hfb).2
      fbHead := by rw [if_pos hm]; exact congrArg (fun r => r.2.head) (Ring.read_some hlen)
      fbTail := Ring.read_tail _ _
      fbMem := Ring.read_mem _ _
      spContent := hcontent
      spHead := hhead
      spMem := hread
      det := by simp [hm]
      buffers := ⟨Ring.read_wf hfb, Ring.write_wf hsp _⟩ }
  case neg =>
    have hp : ¬ pushed := fun hp => hm (hpushed.1 hp).1
    obtain ⟨hhead, -⟩ := (Ring.wf_iff _ _).1 hfb
    rw [State.matchRemnant_skip (mt hmatched.2 hm)]
    exact {
      fbContent := (if_neg hm).symm
      fbHead := by rw [if_neg hm, Nat.add_zero, Nat.mod_eq_of_lt hhead]
      fbTail := rfl
      fbMem := rfl
      spContent := by rw [if_neg hp, List.append_nil]
      spHead := rfl
      spMem := fun _ _ => rfl
      det := by simp [hm]
      buffers := ⟨hfb, hsp⟩ }

/-! ### The whole poll -/

theorem State.PollFrame.eq_with {s t : State} (h : s.PollFrame t) :
    t = { s with fb := t.fb, sp := t.sp, det := t.det, trace := t.trace, env := t.env } :=
  State.ext h.cfg h.role h.devState h.phase h.baud h.bitUs h.linVersion rfl rfl rfl h.scratch h.wdata h.rdata
    h.result h.rspValid h.pins rfl h.cmds rfl

/-- The drain keeps both buffers as R60 says. -/
theorem State.edge_drain_buffersOk {s : State} (h : s.BuffersOk) : s.edge.drain.BuffersOk := by
  obtain ⟨hfb, hsp⟩ := s.edge_buffers
  have hcfg := s.edge_pollFrame.cfg
  obtain ⟨_, -, -, -, -, hwf, -⟩ := State.drain_spec s.edge (by rw [hfb, hcfg]; exact h.1)
  exact ⟨by rw [s.edge.drain_pollFrame.cfg]; exact hwf, by rw [(State.drain_unchanged _).1, hsp]; exact h.2⟩

/-- Settles O18. The sample is `State.edge_det_eq`, the drain `State.drain_spec` and `State.drain_store`, the match
`State.matchRemnant_effect`. -/
theorem availableOnANodeRunsTheFourSteps : Obligations.AvailableOnANodeRunsTheFourSteps := by
  intro s hb hrole hok lvl now changed confirmed e
  obtain ⟨hfb, hsp⟩ := s.edge_buffers
  have hcfg : s.edge.drain.cfg = s.cfg := s.edge.drain_pollFrame.cfg.trans s.edge_pollFrame.cfg
  have hwf : s.edge.fb.wf s.edge.cfg.nFb = true := by rw [hfb, s.edge_pollFrame.cfg]; exact hok.1
  have henv : s.edge.env = e := s.edge_env
  obtain ⟨m, htrace, hmore, hlen, hleft, -, hcontent⟩ := State.drain_spec s.edge hwf
  obtain ⟨hhead, -, htail, hmem⟩ := State.drain_store s.edge hwf
  obtain ⟨hmarks, hdet, -⟩ := State.drain_unchanged s.edge
  rw [henv] at htrace hmore hlen hleft hcontent
  rw [hfb, s.edge_pollFrame.cfg] at hcontent htail hmem
  rw [hfb] at hhead
  rw [hsp] at hmarks
  rw [State.edge_det_eq s (changed := changed) (confirmed := confirmed) Iff.rfl Iff.rfl] at hdet
  obtain ⟨hsame, hquiet⟩ := State.matchRemnant_outside s.edge.drain
  let held := (s.fb.content s.cfg.nFb ++ (Env.advance^[m + 1] e).rxQueue).take s.cfg.nFb
  have hstored : s.edge.drain.fb.len = held.length := by rw [← Ring.content_length s.cfg.nFb, hcontent]
  have heffect : s.edge.drain.MatchEffect s.poll (confirmed ∧ held.head? = some 0)
      ((confirmed ∧ held.head? = some 0) ∧ s.sp.len ≠ 8) :=
    State.matchRemnant_effect (State.edge_drain_buffersOk hok) (by rw [hcfg, hcontent, hdet, decide_eq_true_eq])
      (by rw [hmarks])
  obtain ⟨tContent, tHead, tTail, tMem, tMarks, tSpHead, tSpMem, tDet, tBuffers⟩ := heffect
  rw [hcfg, hcontent] at tContent
  rw [hcfg, hhead] at tHead
  rw [hstored] at htail hmem
  rw [hmarks, ← tTail] at tMarks
  rw [hmarks] at tSpHead tSpMem
  refine ⟨s.poll.finish _, m, exec_available_node hb hrole, ?_, hmore, hlen, hquiet.trans hleft,
    ⟨tContent, tHead, tTail.trans htail, fun a ha => (congrArg (Memory.read · a) tMem).trans (hmem a ha), tMarks, tSpHead,
      tSpMem, ?_⟩, tBuffers, ?_⟩
  · exact hsame.trans (htrace.trans (by rw [s.edge_trace]; rfl))
  · rw [hdet] at tDet
    simp only [decide_eq_true_eq] at tDet
    exact tDet
  · exact congrArg (State.finish _) s.poll_frame.eq_with

/-- A match leaves nothing more to match: the flag is cleared, or its condition still fails (R144). -/
theorem State.matchRemnant_done (s : State) :
    ¬ (s.matchRemnant.det.breakConfirmed = true ∧ s.matchRemnant.fb.peek = some 0) := by
  by_cases h : s.det.breakConfirmed = true ∧ s.fb.peek = some 0
  · rw [State.matchRemnant_match h]
    exact fun hc => Bool.false_ne_true hc.1
  · rwa [State.matchRemnant_skip h]

/-- A poll that sees the recorded level and no byte, with nothing to match, makes its two calls and no more (R147). -/
theorem State.poll_quiet {s : State} (hlevel : s.env.advance.rxLevel = s.det.lastLevel)
    (hqueue : s.env.advance.advance.rxQueue = []) (hdone : ¬ (s.det.breakConfirmed = true ∧ s.fb.peek = some 0)) :
    s.poll = { s with env := s.env.advance.advance,
                      trace := s.trace ++ [.gpioRead .rx s.env.advance.rxLevel, .serialCount 0] } := by
  rw [State.poll, State.edge_same hlevel, State.drain_nothing (s := s.gpioReadRx.2) hqueue,
    State.matchRemnant_skip (s := s.gpioReadRx.2.serialCount.2) hdone]
  ext1
  case trace => simp [hqueue]
  all_goals rfl

/-- Settles O19. The second poll has nothing to match, by `State.matchRemnant_done`. -/
theorem repollingIsHarmless : Obligations.RepollingIsHarmless := by
  intro s t hb hrole _ hexec hlevel hqueue
  rw [exec_available_node hb hrole] at hexec
  cases hexec
  have hframe := s.poll_frame
  rw [exec_available_node (by simpa [hframe.devState] using hb) (by simpa [hframe.role] using hrole),
    State.poll_quiet hlevel hqueue s.edge.drain.matchRemnant_done]
  rfl

end Sys2Proof.Machine
end


section
/-! PROOFS. The payload codec of 43_payload_codec.md: the outcomes of READ_DATA (R170 to R174). -/

namespace Sys2Proof.Machine

/-- A bank overlaid with the first `k` bytes of a list that has as many. -/
theorem overlay_take_getElem {m k : Nat} {l : List Byte} (hk : k ≤ l.length) (v : Vector Byte m) (i : Nat) (hi : i < m) :
    (overlay (l.take k) v)[i] = if i < k then l.getD i 0 else v[i] := by
  rw [overlay_getElem]
  simp only [List.length_take, Nat.min_eq_left hk, List.getElem_take]
  by_cases hin : i < k
  · rw [dif_pos hin, if_pos hin, List.getD_eq_getElem]
  · rw [dif_neg hin, if_neg hin]

section
variable {s : State} {n : Nat}

theorem State.popPayload_scratch (h : s.BuffersOk) (n : Nat) :
    (s.popPayload n).scratch = overlay ((s.fb.content s.cfg.nFb).take (n + 1)) s.scratch :=
  congrArg (overlay · s.scratch) (Ring.pop_content (n + 1) h.1).1

/-- Each byte of `scratch` after the bytes are taken: the new ones up to the checksum, the old ones after (R171, log 17). -/
theorem State.popPayload_scratch_getElem (h : s.BuffersOk) (hlen : n < s.fb.len) (i : Nat) (hi : i < 9) :
    (s.popPayload n).scratch[i] = if i ≤ n then (s.fb.content s.cfg.nFb).getD i 0 else s.scratch[i] := by
  have hk : n + 1 ≤ (s.fb.content s.cfg.nFb).length := by rw [Ring.content_length]; exact hlen
  simp only [State.popPayload_scratch h, overlay_take_getElem hk, Nat.lt_succ_iff]

/-- The bytes READ_DATA takes stand at the front of `scratch`, in order (R171). -/
theorem State.popPayload_scratch_take (h : s.BuffersOk) (hn : n ≤ 8) (hlen : n < s.fb.len) :
    (s.popPayload n).scratch.toList.take (n + 1) = (s.fb.content s.cfg.nFb).take (n + 1) := by
  have htaken : ((s.fb.content s.cfg.nFb).take (n + 1)).length = n + 1 := by
    rw [List.length_take, Ring.content_length]; omega
  rw [State.popPayload_scratch h, overlay_toList, List.take_take, Nat.min_eq_left (by omega), List.take_left' htaken]

/-- The payload READ_DATA compares and copies is the oldest `n` bytes of `FB`. -/
theorem State.popPayload_data (h : s.BuffersOk) (hn : n ≤ 8) (hlen : n < s.fb.len) :
    (s.popPayload n).scratch.toList.take n = (s.fb.content s.cfg.nFb).take n := by
  simpa [List.take_take] using congrArg (List.take n) (State.popPayload_scratch_take h hn hlen)

/-- The comparison of READ_DATA is of the bytes held (R172). -/
theorem State.popPayload_good_iff (h : s.BuffersOk) (hn : n ≤ 8) (hlen : n < s.fb.len) :
    (s.popPayload n).PayloadGood n ↔
      checksum ((s.fb.content s.cfg.nFb).take n) n none = (s.fb.content s.cfg.nFb).getD n 0 := by
  have hsum : (s.popPayload n).scratch.toList.getD n 0 = (s.fb.content s.cfg.nFb).getD n 0 := by
    simpa [List.getD_eq_getElem?_getD, List.getElem?_take] using
      congrArg (List.getD · n 0) (State.popPayload_scratch_take h hn hlen)
  rw [State.PayloadGood, State.popPayload_data h hn hlen, hsum]

/-- Where READ_DATA leaves `FB` (R171). -/
theorem State.popPayload_fb (h : s.BuffersOk) (hlen : n < s.fb.len) : (s.popPayload n).fb =
    { s.fb with head := (s.fb.head + (n + 1)) % s.cfg.nFb, len := s.fb.len - (n + 1) } :=
  Ring.pop_indices (n + 1) hlen ((Ring.wf_iff _ _).1 h.1).1

theorem State.checkPayload_kept (s : State) (n : Nat) :
    (s.checkPayload n).fb = s.fb ∧ (s.checkPayload n).scratch = s.scratch := by
  by_cases h : s.PayloadGood n
  · rw [State.checkPayload_good h]; exact ⟨rfl, rfl⟩
  · rw [State.checkPayload_bad h]; exact ⟨rfl, rfl⟩

end

/-- Settles O24. -/
theorem readDataOutcomes : Obligations.ReadDataOutcomes := by
  intro s buf len hb hok hlen held n
  refine ⟨_, exec_of_runs (i := .readData buf len) ⟨(lenOk_iff len).2 hlen, hb⟩, State.readPayload_buffersOk hok buf n,
    ?null, ?short, ?enough⟩
  case null =>
    rintro rfl
    rfl
  case short =>
    rintro rfl hshort
    exact State.readPayload_short hshort
  case enough =>
    rintro rfl henough
    rw [State.after, State.readPayload_enough henough]
    obtain ⟨hfb, hscratch⟩ := (s.popPayload n).checkPayload_kept n
    refine ⟨?_, hfb.trans (State.popPayload_fb hok henough), fun i hi => ?_, fun hbad => ?_, fun hgood => ?_⟩
    · rw [hfb]; exact (Ring.pop_content (n + 1) hok.1).2
    · simp only [hscratch]; exact State.popPayload_scratch_getElem hok henough i hi
    · rw [State.checkPayload_bad (mt (State.popPayload_good_iff hok hlen henough).1 hbad)]
      rfl
    · rw [State.checkPayload_good ((State.popPayload_good_iff hok hlen henough).2 hgood)]
      refine ⟨fun i hi => ?_, congrArg (fun r => State.finish r _) (BitVec.ofNat_toNat 16 len)⟩
      have hn : n ≤ held.length := by rw [Ring.content_length]; exact Nat.le_of_lt henough
      show (overlay ((s.popPayload n).scratch.toList.take n) s.rdata)[i] = _
      rw [State.popPayload_data hok hlen henough, overlay_take_getElem hn]

end Sys2Proof.Machine
end


section
/-! PROOFS. The blocking wait of 43_payload_codec.md: how it starts (R180), each of its turns (R181), and that it ends when the clock runs (R182). -/

namespace Sys2Proof.Machine

/-! ### The phase, the result and the pulse are not read -/

/-- A poll neither reads nor writes the phase, the result and the pulse, in either role. -/
theorem State.availableBody_relabel (s : State) (p : Phase) (r : Result) (b : Bool) :
    State.availableBody { s with phase := p, result := r, rspValid := b } =
      (s.availableBody.1, { s.availableBody.2 with phase := p, result := r, rspValid := b }) := by
  refine (State.availableBody_around s.cmds s.linVersion p r b s).trans (congrArg (Prod.mk _) ?_)
  rw [← s.availableBody_frame.cmds, ← s.availableBody_frame.linVersion]
  rfl

theorem State.availableBody_setPhase (s : State) (p : Phase) :
    State.availableBody { s with phase := p } = (s.availableBody.1, { s.availableBody.2 with phase := p }) := by
  refine (State.availableBody_relabel s p s.result s.rspValid).trans (congrArg (Prod.mk _) ?_)
  rw [← s.availableBody_frame.result, ← s.availableBody_frame.rspValid]

/-- A turn of the wait does not read the phase: its operands are given to it. -/
theorem State.waitTurn_setPhase (s : State) (p : Phase) (size : Byte) (t0 : Time) (limit : Nat) :
    State.waitTurn size t0 limit { s with phase := p } = s.waitTurn size t0 limit := by
  rcases Nat.lt_or_ge s.fb.len (size.toNat + 1) with hfew | henough
  · by_cases hlate : limit < elapsed t0 s.env.advance.millis
    · rw [State.waitTurn_late hfew hlate, State.waitTurn_late (s := { s with phase := p }) hfew hlate]
      rfl
    · rw [State.waitTurn_poll hfew hlate, State.waitTurn_poll (s := { s with phase := p }) hfew hlate]
      exact congrArg (fun u => { u.2 with phase := .waitLoop size t0 limit })
        (State.availableBody_setPhase s.readMillis.2 p)
  · rw [State.waitTurn_enough t0 limit henough, State.waitTurn_enough (s := { s with phase := p }) t0 limit henough]
    rfl

/-! ### The start of the wait, and its turns -/

theorem exec_waitForData {s : State} (hb : s.devState ≠ .powerOnReset) (size : Byte) : exec (.waitForData size) s =
    .next (s.readMillis.2.waitTurn size s.env.advance.millis s.waitLimit) :=
  exec_of_runs (i := .waitForData size) hb

/-- Settles O25. -/
theorem waitOnBufferedBytesEndsAtOnce : Obligations.WaitOnBufferedBytesEndsAtOnce := by
  intro s size hb henough
  rw [exec_waitForData hb, State.waitTurn_enough (s := s.readMillis.2) _ _ henough]
  rfl

/-- Settles O26. The first turn is that of a state whose phase is already the wait's. -/
theorem waitEntersItsLoop : Obligations.WaitEntersItsLoop := by
  intro s size hb hpulse
  rw [exec_waitForData hb, step_waitLoop rfl,
    ← State.waitTurn_setPhase s.readMillis.2 (.waitLoop size s.env.advance.millis s.waitLimit)]
  refine congrArg (fun u => Host.Outcome.next (State.waitTurn size s.env.advance.millis s.waitLimit u)) ?_
  ext1
  case rspValid => exact hpulse
  all_goals rfl

/-- Settles O27. -/
theorem waitTurnOutcomes : Obligations.WaitTurnOutcomes := by
  intro s size t0 limit hb hphase read late
  rw [step_waitLoop hphase]
  refine ⟨fun henough => ?_, fun hfew hlate => ?_, fun hfew hlate => ?_⟩
  · rw [State.waitTurn_enough (s := s.endPulse) t0 limit henough]; rfl
  · rw [State.waitTurn_late (s := s.endPulse) hfew hlate]; rfl
  · refine ⟨_, exec_of_runs (i := .available) (s := read) hb, ?_⟩
    rw [State.waitTurn_poll (s := s.endPulse) hfew hlate, hphase]
    exact congrArg (fun u => Host.Outcome.next { u.2 with phase := .waitLoop size t0 limit })
      (State.availableBody_relabel read s.phase s.result false)

/-! ### The end of the wait (R182) -/

theorem run_succ {s t : State} (h : step s = .next t) (k : Nat) :
    Host.Core.run Sys2Proof.core (k + 1) s = Host.Core.run Sys2Proof.core k t := by
  simp only [Host.Core.run, Sys2Proof.core, h]

/-- The coming moves take the millisecond clock past the limit, each by at least one, without a wrap. -/
structure Env.PassesLimit (t0 : Time) (limit : Nat) (e : Env) : Prop where
  moving : ∀ m ∈ e.moves, 1 ≤ m.addMillis.toNat
  noWrap : elapsed t0 e.millis + (e.moves.map fun m => m.addMillis.toNat).sum < 2 ^ 32
  passes : limit < elapsed t0 e.millis + e.moves.length

/-- Time that passes without a wrap adds up (R134). -/
theorem elapsed_add {t0 t d : Time} (h : elapsed t0 t + d.toNat < 2 ^ 32) :
    elapsed t0 (t + d) = elapsed t0 t + d.toNat := by
  have hsum : t + d - t0 = t - t0 + d := by rw [sub_add_eq_add_sub]
  rw [elapsed, hsum, BitVec.toNat_add]
  exact Nat.mod_eq_of_lt h

theorem Env.advance_of_nil {e : Env} (h : e.moves = []) : e.advance = e := by
  simp [Env.advance, h]

theorem Env.advance_of_cons {e : Env} {m : EnvMove} {ms : List EnvMove} (h : e.moves = m :: ms) :
    e.advance.millis = e.millis + m.addMillis ∧ e.advance.moves = ms := by
  simp [Env.advance, h]

theorem Env.PassesLimit.advance {t0 : Time} {limit : Nat} {e : Env} (h : e.PassesLimit t0 limit) :
    e.advance.PassesLimit t0 limit := by
  rcases hmoves : e.moves with _ | ⟨m, ms⟩
  · rwa [Env.advance_of_nil hmoves]
  · obtain ⟨hmoving, hwrap, hpass⟩ := h
    obtain ⟨hmillis, hrest⟩ := Env.advance_of_cons hmoves
    rw [hmoves] at hmoving hwrap hpass
    simp only [List.map_cons, List.sum_cons, List.length_cons] at hwrap hpass
    have hm : 1 ≤ m.addMillis.toNat := hmoving m List.mem_cons_self
    have hadd : elapsed t0 e.advance.millis = elapsed t0 e.millis + m.addMillis.toNat := by
      rw [hmillis]; exact elapsed_add (by omega)
    exact ⟨fun x hx => hmoving x (List.mem_cons_of_mem m (hrest ▸ hx)), by rw [hadd, hrest]; omega,
      by rw [hadd, hrest]; omega⟩

theorem Env.PassesLimit.iterate {t0 : Time} {limit : Nat} {e : Env} (h : e.PassesLimit t0 limit) (k : Nat) :
    (Env.advance^[k] e).PassesLimit t0 limit := by
  induction k generalizing e with
  | zero => exact h
  | succ k ih => exact ih h.advance

theorem Env.iterate_advance_moves (k : Nat) (e : Env) : (Env.advance^[k] e).moves = e.moves.drop k := by
  induction k generalizing e with
  | zero => rfl
  | succ k ih => rw [Function.iterate_succ_apply, ih, Env.advance_moves, List.drop_tail]

/-- The wait is over, with one of its two answers. -/
def State.WaitOver (t : State) : Prop := t.busy = false ∧ (t.result = 0 ∨ t.result = 1)

/-- A turn of a wait whose clock runs ends it, or it goes on with fewer moves to come; with none to come it ends. -/
theorem State.waitTurn_progress {s : State} {t0 : Time} {limit : Nat} (h : s.env.PassesLimit t0 limit) (size : Byte) :
    (s.waitTurn size t0 limit).WaitOver ∨
      (s.env.moves ≠ [] ∧ (s.waitTurn size t0 limit).phase = .waitLoop size t0 limit ∧
        (s.waitTurn size t0 limit).env.PassesLimit t0 limit ∧
        (s.waitTurn size t0 limit).env.moves.length < s.env.moves.length) := by
  rcases Nat.lt_or_ge s.fb.len (size.toNat + 1) with hfew | henough
  case inr =>
    rw [State.waitTurn_enough t0 limit henough]
    exact .inl ⟨rfl, .inr rfl⟩
  by_cases hlate : limit < elapsed t0 s.env.advance.millis
  case pos =>
    rw [State.waitTurn_late hfew hlate]
    exact .inl ⟨rfl, .inl rfl⟩
  case neg =>
    have hmoves : s.env.moves ≠ [] := by
      intro hnil
      have hpass := h.passes
      rw [Env.advance_of_nil hnil] at hlate
      rw [hnil, List.length_nil] at hpass
      omega
    obtain ⟨k, q, henv⟩ := s.readMillis.2.availableBody_env
    rw [State.readMillis_env] at henv
    have hnext : (s.waitTurn size t0 limit).env = { Env.advance^[k + 1] s.env with rxQueue := q } := by
      rw [State.waitTurn_poll hfew hlate]
      exact henv
    obtain ⟨hmoving, hwrap, hpass⟩ := h.iterate (k + 1)
    refine .inr ⟨hmoves, by rw [State.waitTurn_poll hfew hlate], ?_, ?_⟩
    · rw [hnext]
      exact ⟨hmoving, hwrap, hpass⟩
    · rw [hnext]
      have hpos := List.length_pos_iff.2 hmoves
      show (Env.advance^[k + 1] s.env).moves.length < _
      rw [Env.iterate_advance_moves, List.length_drop]
      omega

/-- A wait whose clock runs is over after at most one turn more than there are moves. -/
theorem run_waitLoop_ends (n : Nat) {s : State} {size : Byte} {t0 : Time} {limit : Nat}
    (hphase : s.phase = .waitLoop size t0 limit) (h : s.env.PassesLimit t0 limit) (hn : s.env.moves.length ≤ n) :
    ∃ k t, k ≤ n + 1 ∧ Host.Core.run Sys2Proof.core k s = .next t ∧ t.WaitOver := by
  induction n generalizing s with
  | zero =>
    rcases State.waitTurn_progress (s := s.endPulse) h size with hover | ⟨hmoves, -⟩
    · exact ⟨1, _, Nat.le_refl 1, run_succ (step_waitLoop hphase) 0, hover⟩
    · exact absurd (List.length_eq_zero_iff.1 (Nat.le_zero.1 hn)) hmoves
  | succ n ih =>
    rcases State.waitTurn_progress (s := s.endPulse) h size with hover | ⟨-, hgoes, hpass, hless⟩
    · exact ⟨1, _, by omega, run_succ (step_waitLoop hphase) 0, hover⟩
    · have hless' : (s.endPulse.waitTurn size t0 limit).env.moves.length < s.env.moves.length := hless
      obtain ⟨k, t, hk, hrun, hover⟩ := ih hgoes hpass (by omega)
      exact ⟨k + 1, t, by omega, (run_succ (step_waitLoop hphase) k).trans hrun, hover⟩

/-- Settles O28. -/
theorem waitEndsWhenTheClockRuns : Obligations.WaitEndsWhenTheClockRuns :=
  fun _ _ _ _ hphase hmoving hwrap hpass => run_waitLoop_ends _ hphase ⟨hmoving, hwrap, hpass⟩ (Nat.le_refl _)

/-- Settles O46. -/
theorem elapsedTimeAcrossTheWrap : Obligations.ElapsedTimeAcrossTheWrap := by
  intro t0 d hd
  have hzero : elapsed t0 t0 = 0 := by simp [elapsed]
  have hd' : (BitVec.ofNat 32 d).toNat = d := Nat.mod_eq_of_lt hd
  rw [elapsed_add (by rw [hzero, hd', Nat.zero_add]; exact hd), hzero, hd', Nat.zero_add]

end Sys2Proof.Machine
end


section
/-! PROOFS. WRITE_DATA (44_host_transmit.md R195) and the device state machine (46_device_state.md): BEGIN, SLEEP, WAKE and LIN_VERSION; what they make of the environment (R307). -/

namespace Sys2Proof.Machine

/-! ### Command words -/

/-- `ARG` stands in the low twenty bits of the command word, over the rest of the fields (R91). -/
theorem cmdWord_arg (op len : BitVec 4) (nul flg : BitVec 1) (arg : BitVec 20) :
    cmdWord op len nul flg arg = cmdWord op len nul flg 0 ||| arg.zeroExtend 32 := by
  apply BitVec.eq_of_getLsbD_eq
  intro i hi
  simp only [cmdWord, BitVec.getLsbD_or, BitVec.getLsbD_append, BitVec.getLsbD_setWidth, hi]
  by_cases hlow : i < 20
  case pos => simp [hlow]
  case neg => simp [hlow, BitVec.getLsbD_of_ge arg i (by omega)]

/-! ### WRITE_DATA -/

/-- The payload WRITE_DATA sends has the admitted length (R195). -/
theorem State.payload_length {len : BitVec 4} (h : len.toNat ≤ 8) (s : State) : (s.payload len).length = len.toNat := by
  simp [State.payload, h]

/-- A length in the result is widened with zeros (R95). -/
theorem zext16_len (len : BitVec 4) : zext16 len.toNat = len.zeroExtend 16 := BitVec.ofNat_toNat 16 len

/-- The state a payload leaves: its calls in the trace, nothing unsent, the microsecond clock moved on (R195). -/
theorem State.sendPayload_eq (data : List Byte) (s : State) : s.sendPayload data =
    { s with trace := s.trace ++ payloadEvents s.bitUs.toNat data
             env := { s.env with txPending := [], micros := (s.sendPayload data).env.micros } } := by
  rw [← State.sendPayload_trace, ← State.sendPayload_env]
  refine (State.sendPayload_frame data s).eq_with.trans ?_
  rw [State.sendPayload_pins]

/-- The calls of a payload in the words of R195. -/
theorem payloadEvents_eq_payloadCalls (bitUs : Nat) (data : List Byte) :
    payloadEvents bitUs data = payloadCalls bitUs data (checksum data data.length none) := by
  rw [payloadEvents, payloadCalls, List.flatMap_def]
  rfl

/-- Settles O30. -/
theorem writeDataSendsPayloadAndChecksum : Obligations.WriteDataSendsPayloadAndChecksum := by
  refine ⟨by decide, fun s len hb hlen => ?_⟩
  have hruns (buf : Buf) : s.Runs (.writeData buf len) := ⟨(lenOk_iff len).2 hlen, hb⟩
  refine ⟨exec_of_runs (hruns .null), _, exec_of_runs (hruns .bank), ?_⟩
  have hsent := State.sendPayload_eq (s.payload len) s
  rw [payloadEvents_eq_payloadCalls, State.payload_length hlen] at hsent
  exact (congrArg (fun r => State.finish r _) (zext16_len len)).trans (congrArg (State.finish (len.zeroExtend 16)) hsent)

/-! ### BEGIN -/

/-- Settles O31. -/
theorem beginInitialises : Obligations.BeginInitialises := by
  refine ⟨fun baud => ⟨cmdWord_arg 1 0 0 1 baud, cmdWord_arg 1 0 0 0 baud⟩, fun s baud isHost hlow hhigh htx => ?_⟩
  refine ⟨_, exec_of_runs (State.runs_beginOp_iff.2 ⟨⟨hlow, hhigh⟩, htx⟩), fun hsent => ?_, ?_⟩
  · rw [State.after, State.initialise_eq]
    exact Env.peripheral_nothingPending hsent
  · rw [State.after, State.initialise_eq]
    rfl

theorem baudOk_iff (baud : BitVec 20) : baudOk baud = true ↔ 1 ≤ baud.toNat ∧ baud.toNat ≤ 1000000 :=
  decide_eq_true_iff

/-- Settles O32. -/
theorem beginOutsideItsDomainIsRefused : Obligations.BeginOutsideItsDomainIsRefused := by
  refine fun s baud isHost => ⟨fun hout => ?_, fun hlow hhigh hno => ?_⟩
  · have hbad : ¬ baudOk baud = true := fun h => by
      obtain ⟨hlow, hhigh⟩ := (baudOk_iff baud).1 h
      omega
    exact if_neg hbad
  · exact (if_pos ((baudOk_iff baud).2 ⟨hlow, hhigh⟩)).trans (if_pos ⟨rfl, hno⟩)

/-- Settles O45. -/
theorem bitPeriodIsTheQuotient : Obligations.BitPeriodIsTheQuotient := by
  intro baud hlow hhigh
  have hle : 1000000 / baud.toNat ≤ 1000000 := Nat.div_le_self _ _
  have hperiod : (bitPeriod baud).toNat = 1000000 / baud.toNat := Nat.mod_eq_of_lt (by omega)
  rw [hperiod]
  exact ⟨rfl, Nat.div_pos hhigh hlow, Nat.div_mul_le_self _ _, Nat.lt_mul_of_div_lt (Nat.lt_succ_self _) hlow⟩

/-! ### SLEEP and WAKE -/

/-- The identifier of the sleep command frame is its own protected identifier (C9). -/
theorem protectedId_sleepId : protectedId sleepId = sleepId := by decide

theorem State.goToSleep_plain {force : Bool} {s : State} (h : force = false ∨ s.role = .node) :
    s.goToSleep force = ((s.gpioWrite .cs .low).setDev .sleep).finish 0 := by
  have hno : ¬ (force = true ∧ s.role = .host) := by
    rintro ⟨hforce, hrole⟩
    rcases h with e | e
    · exact absurd (e.symm.trans hforce) nofun
    · exact absurd (e.symm.trans hrole) nofun
  rw [State.goToSleep, if_neg hno]

theorem State.goToSleep_forced {s : State} (hrole : s.role = .host) :
    s.goToSleep true = ((s.sendSleepFrame.gpioWrite .cs .low).setDev .sleep).finish 0 := by
  rw [State.goToSleep, if_pos ⟨rfl, hrole⟩]

/-- The state the sleep command frame leaves (R236). -/
theorem State.sendSleepFrame_eq (s : State) : s.sendSleepFrame = { s with
    trace := s.trace ++ (headerEvents s.bitUs.toNat sleepId ++ payloadEvents s.bitUs.toNat (Config.sleepPayload s.cfg))
    pins := { s.pins with txLevel := .high, txOwner := .serial }
    env := s.sendSleepFrame.env } := by
  rw [← State.sendSleepFrame_trace, ← State.sendSleepFrame_pins]
  exact s.sendSleepFrame_frame.eq_with

/-- Settles O33. -/
theorem sleepSendsTheSleepFrameOnAForcedHost : Obligations.SleepSendsTheSleepFrameOnAForcedHost := by
  refine ⟨by decide, by decide, fun s force hb => ⟨fun hplain => ?_, ?_⟩⟩
  · rw [exec_of_runs (i := .sleep force) hb, State.after, State.goToSleep_plain hplain]
    rfl
  · rintro rfl hrole data
    refine ⟨_, exec_of_runs (i := .sleep true) hb, ?_, ?_⟩
    · rw [State.after, State.goToSleep_forced hrole]
      exact s.sendSleepFrame_txPending
    · have hlen : (Config.sleepPayload s.cfg).length = 8 := by simp [Config.sleepPayload]
      have hframe := s.sendSleepFrame_eq
      rw [payloadEvents_eq_payloadCalls, hlen, headerEvents, protectedId_sleepId] at hframe
      rw [State.after, State.goToSleep_forced hrole]
      refine (congrArg (fun u => ((u.gpioWrite .cs .low).setDev .sleep).finish 0) hframe).trans ?_
      ext1
      case trace => exact List.append_assoc s.trace _ _
      all_goals rfl

theorem State.sendWake_silent {s : State} (h : s.role = .host ∨ s.cfg.hasTx = false) : s.sendWake = s := by
  have hno : ¬ (s.role = .node ∧ s.cfg.hasTx = true) := by
    rintro ⟨hrole, htx⟩
    rcases h with e | e
    · exact absurd (e.symm.trans hrole) nofun
    · exact absurd (e.symm.trans htx) nofun
  exact if_neg hno

theorem State.sendWake_node {s : State} (hrole : s.role = .node) (htx : s.cfg.hasTx = true) :
    s.sendWake = (s.serialWrite wakeByte).serialFlush :=
  if_pos ⟨hrole, htx⟩

/-- Settles O34. -/
theorem wakeEnablesTheTransceiver : Obligations.WakeEnablesTheTransceiver := by
  refine ⟨by decide, fun s hb => ⟨fun hquiet => ?_, fun hrole htx => ?_⟩⟩
  · rw [exec_of_runs (i := .wake) hb, State.after, State.wakeUp,
      State.sendWake_silent (s := (s.gpioWrite .cs .high).setDev .ready) hquiet]
    rfl
  · rw [exec_of_runs (i := .wake) hb, State.after, State.wakeUp,
      State.sendWake_node (s := (s.gpioWrite .cs .high).setDev .ready) hrole htx]
    refine congrArg Host.Outcome.next ?_
    ext1 <;> simp [wakeByte]

/-! ### LIN_VERSION -/

/-- Settles O35. -/
theorem linVersionReadsAndWrites : Obligations.LinVersionReadsAndWrites := by
  refine ⟨fun v => cmdWord_argOfByte 14 0 0 1 v, by decide, fun s v => ⟨?_, ?_⟩⟩
  · rw [exec_of_runs (i := .linVersion (some v)) trivial, State.after, State.accessLinVersion, zext16_toNat]
    rfl
  · rw [exec_of_runs (i := .linVersion none) trivial, State.after, State.accessLinVersion, zext16_toNat]
    rfl

/-! ### The environment (R307) -/

/-- Settles O57. -/
theorem peripheralCallsTakeOneMoveEach : Obligations.PeripheralCallsTakeOneMoveEach := by
  refine fun s t => ⟨fun id hrole h => ?_, fun hrole h => ?_, fun baud isHost h => ?_⟩
  · obtain ⟨-, rfl⟩ := exec_eq_next_iff.1 h
    simp only [State.after, State.writeHeader, hrole]
    exact State.sendHeader_env id s
  · obtain ⟨-, rfl⟩ := exec_eq_next_iff.1 h
    rw [State.after, State.goToSleep_forced hrole]
    exact s.sendSleepFrame_env
  · obtain ⟨-, rfl⟩ := exec_eq_next_iff.1 h
    rw [State.after, State.initialise_eq]

end Sys2Proof.Machine
end


section
/-! PROOFS. The checksum and parity engine (45_checksum_parity.md): the laws of the end-around-carry sum (R213), CALC_CHECKSUM (R214), and valid protected identifiers (R163, R211). -/

namespace Sys2Proof.Machine

/-! ### The end-around-carry sum (R212, R213) -/

/-- The sum of a total folded once at the end: its residue modulo 255, with 255 for 0 unless the total is 0 (R213). -/
def foldOnce (total : Nat) : Nat := if total = 0 then 0 else (total - 1) % 255 + 1

theorem foldOnce_le (total : Nat) : foldOnce total ≤ 255 := by
  unfold foldOnce
  split <;> omega

/-- A total below 256 needs no fold. -/
theorem foldOnce_of_le {total : Nat} (h : total ≤ 255) : foldOnce total = total := by
  unfold foldOnce
  split <;> omega

/-- Folding after a byte is folding the total with that byte. -/
theorem addCarry_foldOnce (total : Nat) (b : Byte) : addCarry (foldOnce total) b = foldOnce (total + b.toNat) := by
  have hb : b.toNat < 256 := b.isLt
  by_cases h : total = 0
  · subst h
    rw [Nat.zero_add, foldOnce_of_le (Nat.le_of_lt_succ hb), foldOnce, if_pos rfl, addCarry, Nat.zero_add]
    exact if_neg (by omega)
  · rw [foldOnce, if_neg h, foldOnce, if_neg (by omega), addCarry]
    split <;> omega

theorem foldl_addCarry (data : List Byte) (total : Nat) :
    data.foldl addCarry (foldOnce total) = foldOnce (total + (data.map BitVec.toNat).sum) := by
  induction data generalizing total with
  | nil => simp
  | cons b data ih => rw [List.foldl_cons, addCarry_foldOnce, ih, List.map_cons, List.sum_cons, Nat.add_assoc]

/-- The checksum's sum is the true total, folded once at the end (R213 law 1). -/
theorem checksumSum_eq_foldOnce (data : List Byte) (seed : Option Byte) : checksumSum data seed =
    foldOnce ((seed.map BitVec.toNat).getD 0 + (data.map BitVec.toNat).sum) := by
  rw [← foldl_addCarry]
  cases seed with
  | none => rfl
  | some b => rw [Option.map_some, Option.getD_some, foldOnce_of_le (Nat.le_of_lt_succ b.isLt), checksumSum]

theorem checksumSum_le (data : List Byte) (seed : Option Byte) : checksumSum data seed ≤ 255 := by
  rw [checksumSum_eq_foldOnce]
  exact foldOnce_le _

/-- Settles O38. -/
theorem checksumFoldsOnce : Obligations.ChecksumFoldsOnce :=
  fun data seed => ⟨checksumSum_eq_foldOnce data seed, checksumSum_le data seed⟩

/-- Settles O39. The total of a list does not depend on its order. -/
theorem checksumIgnoresOrder : Obligations.ChecksumIgnoresOrder := by
  intro data data' seed hperm hlen
  have hsum : checksumSum data seed = checksumSum data' seed := by
    rw [checksumSum_eq_foldOnce, checksumSum_eq_foldOnce, (hperm.map BitVec.toNat).sum_eq]
  rw [checksum_length hlen, checksum_length (hperm.length_eq ▸ hlen), hsum]

/-- The complement of a byte is what is missing to 255. -/
theorem toNat_not_ofNat {n : Nat} (h : n ≤ 255) : (~~~ BitVec.ofNat 8 n).toNat = 255 - n := by
  rw [BitVec.toNat_not, BitVec.toNat_ofNat, Nat.mod_eq_of_lt (by omega)]

/-- Settles O40. The checksum is what the sum lacks to 255, so adding it makes 255, without a carry. -/
theorem checksumReceiverFindsAllOnes : Obligations.ChecksumReceiverFindsAllOnes := by
  intro data seed hlen
  have hle := checksumSum_le data seed
  have happend (c : Byte) : checksumSum (data ++ [c]) seed = addCarry (checksumSum data seed) c := by
    simp only [checksumSum, List.foldl_append]
    rfl
  have htotal : checksumSum data seed + (255 - checksumSum data seed) = 255 := by omega
  rw [happend, checksum_length hlen, addCarry, toNat_not_ofNat hle, htotal]
  rfl

/-- Settles O42. -/
theorem calcChecksumResult : Obligations.CalcChecksumResult := by
  have hword : ∀ len : BitVec 4, cmdWord 11 len 0 1 0 = 0xB0400000 ||| len.zeroExtend 32 <<< 24 ∧
      cmdWord 11 len 1 0 0 = 0xB0800000 ||| len.zeroExtend 32 <<< 24 := by decide
  refine ⟨fun len seed => ⟨?_, (hword len).2⟩, fun s len seed =>
    ⟨exec_of_runs (i := .calcChecksum .null len seed) trivial, ?_⟩⟩
  · rw [← (hword len).1]
    exact cmdWord_argOfByte 11 len 0 1 seed
  · rw [exec_of_runs (i := .calcChecksum .bank len seed) trivial, State.after, State.calcChecksum, zext16_toNat]
    rfl

/-! ### Protected identifiers -/

/-- Settles O22, by evaluation over the 256 bytes and the 64 identifiers. -/
theorem validProtectedIdentifiers : Obligations.ValidProtectedIdentifiers := by
  refine ⟨?_, ?_, ?_⟩
  · decide
  · decide +kernel
  · decide

/-- Settles O23, by evaluation over the 64 identifiers. -/
theorem parityRoundTrip : Obligations.ParityRoundTrip := by
  unfold Obligations.ParityRoundTrip
  decide

end Sys2Proof.Machine
end
